-- ==== Sys2Proof/Word.lean ====
section
/-!
DEFINITION. The words of the block: bytes, 16-bit wire words, 32-bit field patterns, the ten-bit
error mask, and the two fixed-length collections of `spec/00_scope.md` R8, R11 and `spec/30_encoding.md` R65.
-/
namespace Sys2Proof

/-- A byte, bit 7 its high bit (R8). -/
abbrev Byte := BitVec 8

/-- A 16-bit command, argument or response value (R9). -/
abbrev Word := BitVec 16

/-- A 32-bit field pattern: the bits of an IEEE-754 binary32 value, never computed with (R20, R114). -/
abbrev Pattern := BitVec 32

/-- ERRMASK: bit i set means that field i failed to decode (R30). -/
abbrev ErrMask := BitVec 10

/-- Ten field patterns in index order: MR, or the record an operation returns (R20). -/
abbrev Record := Vector Pattern 10

/-- A measurement block, format F-B: 60 bytes in arrival order (R65). -/
abbrev Block := Vector Byte 60

/-- The ten fields by name, in the index order of R11. -/
inductive FieldId where
  | mc1p0 | mc2p5 | mc4p0 | mc10p0 | nc0p5 | nc1p0 | nc2p5 | nc4p0 | nc10p0 | tps
  deriving DecidableEq, Repr

end Sys2Proof
end

