-- ==== Sys2Proof/Config.lean ====
section
/-!
DEFINITION. The open parameters of `spec/00_scope.md` R6 and the free values. None has a body: nothing
can be proved about their values, so a theorem holds whatever they are. The durations of R6 have no constant:
a wait is a name without a number (R42), `Machine.WaitName`.
-/
namespace Sys2Proof

/-- DEV_ADDR7, the sensor's 7-bit bus identifier (R6, R51, decision D3). Safe. -/
opaque Config.devAddr7 : BitVec 7

/-- MR_RESET[i], the unspecified value of MR[i] after reset (R23, decision D6). DESIGN CHOICE, log entry 1. -/
opaque Config.mrReset : Fin 10 → Pattern

/-- Free value: whether the transport answers a call with success (R43, U2), for a call beyond the
end of `State.answers`. Log entry 4. Safe. -/
opaque Config.freeReply : Nat → Bool

/-- Free value: a byte a successful read brings (R43, U2), beyond the end of `State.rx`. Log entry 4. Safe. -/
opaque Config.freeByte : Nat → Byte

end Sys2Proof
end

