-- ==== Sys2Proof/Machine/Constants.lean ====
section
/-!
DEFINITION. The constants the document fixes (`spec/00_scope.md` R5), in one place, because they are
unaudited (93_implementation_defined.md U1). UNVERIFIED, log entry 9.
-/
namespace Sys2Proof.Machine

/-- CRC_INIT (R5). -/
def crcInit : Byte := 0xFF
/-- CRC_POLY (R5). -/
def crcPoly : Byte := 0x31
/-- CMD_START (R70). -/
def wordStart : Word := 0x0010
/-- ARG_START, the fixed argument of CMD_START (R68). -/
def argStart : Word := 0x0300
/-- CMD_DRDY (R71). -/
def wordDrdy : Word := 0x0202
/-- CMD_READ (R72). -/
def wordRead : Word := 0x0300
/-- CMD_STOP (R73). -/
def wordStop : Word := 0x0104
/-- CMD_RESET (R74). -/
def wordReset : Word := 0xD304
/-- CMD_FWVER (R75). -/
def wordFwver : Word := 0xD100
/-- DRDY_TRUE, the only data-ready value that means ready (R77). -/
def drdyTrue : Word := 0x0001

end Sys2Proof.Machine
end

