-- ==== Sys2Proof/Machine/Operands.lean ====
section
/-!
DEFINITION. The operand forms and pure functions of units U1 and U2: byte order (R45, R46, R67, R69), the
checksum (R90), the two frame formats (R60, R61), the ResponseWord (R63, R104), the group and the
block as a sender writes them (R64, R65), field names (R11) and the bus address (R51).
-/
namespace Sys2Proof.Machine

/-- `BE16(b0, b1)`: b0 arrived first and is the high byte (R67). -/
def be16 (b0 b1 : Byte) : Word := b0 ++ b1

/-- v[15:8]. -/
def hiByte (v : Word) : Byte := v.extractLsb' 8 8

/-- v[7:0]. -/
def loByte (v : Word) : Byte := v.extractLsb' 0 8

/-- `BYTES16(v)`: the high byte first (R67). -/
def bytes16 (v : Word) : List Byte := [hiByte v, loByte v]

/-- `BE32(d0, d1, d2, d3)` (R69). -/
def be32 (d0 d1 d2 d3 : Byte) : Pattern := be16 d0 d1 ++ be16 d2 d3

/-- One round of R90: the high bit is tested before the shift; the bit shifted out is lost. -/
def crcRound (acc : Byte) : Byte :=
  if acc.getLsbD 7 then (acc <<< 1) ^^^ crcPoly else acc <<< 1

/-- `STEP(a, b)` of R93 c: exclusive-or the byte in, then eight rounds. -/
def crcStep (acc b : Byte) : Byte :=
  crcRound (crcRound (crcRound (crcRound (crcRound (crcRound (crcRound (crcRound (acc ^^^ b))))))))

/-- `CRC8(s)` (R90): the bytes in arrival order from 0xFF, no final exclusive-or. -/
def crc8 (s : List Byte) : Byte := s.foldl crcStep crcInit

/-- Frame format F-C (R60), the function of BLDCMD (R100). -/
def buildCmd (cmd : Word) : List Byte := bytes16 cmd

/-- Frame format F-CA (R61), the function of BLDARG (R102): the checksum covers the argument bytes only
and is computed on every call (R56). -/
def buildArg (cmd arg : Word) : List Byte := bytes16 cmd ++ bytes16 arg ++ [crc8 (bytes16 arg)]

/-- `PARSEWORD(w)` (R104): the value, or `none` for ChecksumError, which carries no data. -/
def parseWord (w0 w1 w2 : Byte) : Option Word :=
  if crc8 [w0, w1] = w2 then some (be16 w0 w1) else none

/-- A ResponseWord carrying v, format F-W (R63). -/
def responseWord (v : Word) : List Byte := bytes16 v ++ [crc8 (bytes16 v)]

/-- A group carrying the field f, format F-G (R64): its upper half, then its lower half. -/
def groupBytes (f : Pattern) : List Byte :=
  responseWord (f.extractLsb' 16 16) ++ responseWord (f.extractLsb' 0 16)

/-- Byte k of the measurement block that carries the ten fields of r, format F-B (R65). -/
def blockOf (r : Record) : Block :=
  Vector.ofFn fun k => (groupBytes (r[k.val / 6]'(by omega))).getD (k.val % 6) 0

/-- The index of a field (R11). -/
def fieldIndex : FieldId → Fin 10
  | .mc1p0 => 0 | .mc2p5 => 1 | .mc4p0 => 2 | .mc10p0 => 3 | .nc0p5 => 4
  | .nc1p0 => 5 | .nc2p5 => 6 | .nc4p0 => 7 | .nc10p0 => 8 | .tps => 9

/-- DEV_ADDR8, the address every transport call carries: DEV_ADDR7 shifted left by one bit, bit 0 clear (R51).
PRESUMED by the spec itself (GK2), log entry 2. -/
def devAddr8 : Byte := Config.devAddr7 ++ 0#1

end Sys2Proof.Machine
end

