-- ==== Sys2Proof/Syntax.lean ====
section
/-!
DEFINITION. The instructions: one constructor per row of `spec/opcode_table.json`. The first nine are the
host operations of R80 with their typed operands (R84); the last six are the wire command words of R70 to R75.
-/
namespace Sys2Proof

/-- One constructor per row of the opcode table. -/
inductive Instr where
  /-- CRC8 (R91): a byte sequence of any finite length. -/
  | crc8 (bytes : List Byte)
  /-- BLDCMD (R100). -/
  | bldcmd (cmd : Word)
  /-- BLDARG (R102). -/
  | bldarg (cmd arg : Word)
  /-- PRSWORD (R104): three bytes in arrival order. -/
  | prsword (w0 w1 w2 : Byte)
  /-- DECBLK (R116): sixty bytes in arrival order. -/
  | decblk (buf : Block)
  /-- INIT (R124). -/
  | init
  /-- POLL (R126). -/
  | poll
  /-- READ (R128). -/
  | read
  /-- DEINIT (R130). -/
  | deinit
  /-- CMD_START (R70, format F-CA): the row's two free fields, the argument and the checksum byte. -/
  | cmdStart (arg : Word) (chk : Byte)
  /-- CMD_DRDY (R71). -/
  | cmdDrdy
  /-- CMD_READ (R72). -/
  | cmdRead
  /-- CMD_STOP (R73). -/
  | cmdStop
  /-- CMD_RESET (R74). -/
  | cmdReset
  /-- CMD_FWVER (R75). -/
  | cmdFwver
  deriving DecidableEq, Repr

end Sys2Proof
end

