-- ==== Sys2Proof/Decode.lean ====
section
/-!
DEFINITION. How an instruction is presented, its decoder, and after it the encoder. The spec has two kinds of encoding
(`spec/30_encoding.md`): the selection of a host operation by OPSEL (R80) and the wire frames of
the command words (R60, R61, R70 to R75). How operands cross the host port is not fixed by the spec (R84):
here they are bytes, 16-bit operands high byte first. DESIGN CHOICE, log entry 3.
-/
namespace Sys2Proof

/-- What can be presented to the machine. -/
inductive Request where
  /-- A host operation: its OPSEL code and the bytes of its operands (R80). -/
  | operation (opsel : BitVec 4) (operands : List Byte)
  /-- A row of the command map, named by its frame in transmission order (R60, R61). -/
  | frame (bytes : List Byte)
  deriving DecidableEq, Repr

/-- Why a request is no instruction. All are safe: the machine does not go on. -/
inductive Reject where
  /-- OPSEL codes that select nothing (R81, U5). -/
  | reservedOpsel (opsel : BitVec 4)
  /-- The bytes are no operand of the selected operation (R84, R116 "is not an operand of this operation"). -/
  | notAnOperand (opsel : BitVec 4)
  /-- The bytes are no frame of one of the six defined command words (R76). -/
  | notACommandFrame (bytes : List Byte)
  deriving DecidableEq, Repr

/-- Decode a host operation (R80, R81). -/
def decodeOperation (opsel : BitVec 4) (operands : List Byte) : Except Reject Instr :=
  match opsel.toNat with
  | 0x0 => .ok (.crc8 operands)
  | 0x1 =>
    match operands with
    | [c1, c0] => .ok (.bldcmd (Machine.be16 c1 c0))
    | _ => .error (.notAnOperand opsel)
  | 0x2 =>
    match operands with
    | [c1, c0, a1, a0] => .ok (.bldarg (Machine.be16 c1 c0) (Machine.be16 a1 a0))
    | _ => .error (.notAnOperand opsel)
  | 0x3 =>
    match operands with
    | [w0, w1, w2] => .ok (.prsword w0 w1 w2)
    | _ => .error (.notAnOperand opsel)
  | 0x4 =>
    if h : operands.length = 60 then .ok (.decblk ⟨operands.toArray, by simpa using h⟩)
    else .error (.notAnOperand opsel)
  | 0x8 => if operands = [] then .ok .init else .error (.notAnOperand opsel)
  | 0x9 => if operands = [] then .ok .poll else .error (.notAnOperand opsel)
  | 0xA => if operands = [] then .ok .read else .error (.notAnOperand opsel)
  | 0xB => if operands = [] then .ok .deinit else .error (.notAnOperand opsel)
  | _ => .error (.reservedOpsel opsel)

/-- The argument-less row of the command map with this command word (R71 to R75). -/
def decodeCommand (cmd : Word) : Option Instr :=
  if cmd = Machine.wordDrdy then some .cmdDrdy
  else if cmd = Machine.wordRead then some .cmdRead
  else if cmd = Machine.wordStop then some .cmdStop
  else if cmd = Machine.wordReset then some .cmdReset
  else if cmd = Machine.wordFwver then some .cmdFwver
  else none

/-- Decode a frame of the command map: only CMD_START carries an argument (R62). -/
def decodeFrame (bytes : List Byte) : Except Reject Instr :=
  match bytes with
  | [c1, c0] =>
    match decodeCommand (Machine.be16 c1 c0) with
    | some i => .ok i
    | none => .error (.notACommandFrame bytes)
  | [c1, c0, a1, a0, k] =>
    if Machine.be16 c1 c0 = Machine.wordStart then .ok (.cmdStart (Machine.be16 a1 a0) k)
    else .error (.notACommandFrame bytes)
  | _ => .error (.notACommandFrame bytes)

/-- The decoder: total, rejecting by name. -/
def decode : Request → Except Reject Instr
  | .operation opsel operands => decodeOperation opsel operands
  | .frame bytes => decodeFrame bytes

/-- The encoder, from the same tables (R80; R60, R61, R70 to R75). -/
def encode : Instr → Request
  | .crc8 bytes => .operation 0x0 bytes
  | .bldcmd cmd => .operation 0x1 (Machine.bytes16 cmd)
  | .bldarg cmd arg => .operation 0x2 (Machine.bytes16 cmd ++ Machine.bytes16 arg)
  | .prsword w0 w1 w2 => .operation 0x3 [w0, w1, w2]
  | .decblk buf => .operation 0x4 buf.toList
  | .init => .operation 0x8 []
  | .poll => .operation 0x9 []
  | .read => .operation 0xA []
  | .deinit => .operation 0xB []
  | .cmdStart arg chk => .frame (Machine.bytes16 Machine.wordStart ++ Machine.bytes16 arg ++ [chk])
  | .cmdDrdy => .frame (Machine.bytes16 Machine.wordDrdy)
  | .cmdRead => .frame (Machine.bytes16 Machine.wordRead)
  | .cmdStop => .frame (Machine.bytes16 Machine.wordStop)
  | .cmdReset => .frame (Machine.bytes16 Machine.wordReset)
  | .cmdFwver => .frame (Machine.bytes16 Machine.wordFwver)

/-- How many operand bytes the operation with this code has in a table word, whose operands are zeros:
its fixed length, and none for CRC8, which takes any number (R91). -/
def operandCount (opsel : BitVec 4) : Nat :=
  match opsel.toNat with
  | 0x1 => 2
  | 0x2 => 4
  | 0x3 => 3
  | 0x4 => 60
  | _ => 0

/-- The byte of w whose least significant bit is bit 8k. -/
def tableByte (w k : Nat) : Byte := BitVec.ofNat 8 (w >>> (8 * k))

/-- The request a word of the opcode table stands for, in the table's numbering: a 4-bit OPSEL in one byte,
a 16-bit command word, or the 40-bit frame with the command in bits 39 to 24; wire words are sent most
significant byte first (R45). Log entry 3. -/
def tableRequest (nbits w : Nat) : Option Request :=
  if nbits ≤ 8 then
    if w < 16 then
      some (.operation (BitVec.ofNat 4 w) (List.replicate (operandCount (BitVec.ofNat 4 w)) 0))
    else none
  else if nbits = 16 then
    if w < 0x10000 then
      if BitVec.ofNat 16 w = Machine.wordStart then
        some (.frame [tableByte w 1, tableByte w 0, 0, 0, 0])
      else some (.frame [tableByte w 1, tableByte w 0])
    else none
  else if nbits = 40 then
    if w < 0x10000000000 then
      some (.frame [tableByte w 4, tableByte w 3, tableByte w 2, tableByte w 1, tableByte w 0])
    else none
  else none

/-- The instruction the decoder reads from a word of the opcode table. -/
def decodeTableWord (nbits w : Nat) : Option Instr :=
  match tableRequest nbits w with
  | some r =>
    match decode r with
    | .ok i => some i
    | .error _ => none
  | none => none

end Sys2Proof
end

