-- ==== Sys2Proof/Machine/State.lean ====
section
/-!
DEFINITION. The state of the block (`spec/10_state.md`), the transport's answers that come in, and the
results and events that go out, all plain data; the reasons a step can stop; the state after reset (R160, R161).
-/
namespace Sys2Proof.Machine

/-- SESSION: exactly three values (R24). -/
inductive Session where
  | uninitialized | measuring | stopped
  deriving DecidableEq, Repr

/-- The fixed waits by name (R6, R42): T_SETTLE, T_FWVER, T_POLL, T_READ, T_STOP. -/
inductive WaitName where
  | settle | fwver | poll | read | stop
  deriving DecidableEq, Repr

/-- What the transport will say to a call: success (`Ok`), `NoAck` to a write or `Fail` to a read (R40, R41),
or nothing ever (U10). -/
inductive Reply where
  | ok | failed | never
  deriving DecidableEq, Repr

/-- How a wait ends (R42): it returns, or never does (U10). -/
inductive WaitAnswer where
  | returns | never
  deriving DecidableEq, Repr

/-- The answer to a write (R40). -/
inductive WriteAnswer where
  | ok | noAck
  deriving DecidableEq, Repr

/-- The answer to a read (R41). -/
inductive ReadAnswer where
  | ok (bytes : List Byte)
  | fail
  deriving DecidableEq, Repr

/-- A bus call of the block (R40, R41); its address is always DEV_ADDR8. -/
inductive BusCall where
  | write (bytes : List Byte)
  | read (count : Nat)
  deriving DecidableEq, Repr

/-- The step an operation is stuck in: a bus call or a wait that never returns (R175, U10). -/
inductive Pending where
  | call (c : BusCall)
  | wait (t : WaitName)
  deriving DecidableEq, Repr

/-- The external events (R44). -/
inductive Event where
  | railOn
  | railOff
  | wait (t : WaitName)
  | write (bytes : List Byte) (answer : WriteAnswer)
  | read (count : Nat) (answer : ReadAnswer)
  deriving DecidableEq, Repr

/-- The error kinds with their payloads (R140). `decodeError` is never a result on its own (R144);
`checksumError` carries no data value (R143). -/
inductive ErrorKind where
  | busAckError
  | busReadError
  | checksumError
  | decodeError (field : Fin 10)
  | notReadyError
  | initFailure
  | partialReadError (errmask : ErrMask) (record : Record)
  deriving DecidableEq, Repr

/-- The success value of an operation (R80, result column). -/
inductive Value where
  /-- INIT, DEINIT: `Ok` alone. -/
  | done
  /-- CRC8. -/
  | byte (b : Byte)
  /-- BLDCMD, BLDARG: a frame. -/
  | frame (bytes : List Byte)
  /-- PRSWORD. -/
  | word (v : Word)
  /-- POLL. -/
  | ready (yes : Bool)
  /-- READ. -/
  | record (r : Record)
  /-- DECBLK: the record and ERRMASK together (R116). -/
  | decoded (r : Record) (errmask : ErrMask)
  deriving DecidableEq, Repr

/-- The result of an operation (R10). -/
inductive Result where
  | ok (v : Value)
  | error (e : ErrorKind)
  deriving DecidableEq, Repr

/-- The state. MR, SESSION and RAIL_EN are the block's whole persistent state; the other fields are the
model's: the inputs still to come and the outputs so far (log entries 3 to 6). -/
@[ext]
structure State where
  /-- MR[0..9] (R20). -/
  mr : Record
  /-- SESSION (R24). -/
  session : Session
  /-- RAIL_EN (R27). -/
  railEn : Bool
  /-- What the host presents, the next first (R84). -/
  requests : List Request
  /-- The transport's answers to the coming calls, in call order (R43). -/
  answers : List Reply
  /-- The bytes the coming successful reads bring, in arrival order (R43). -/
  rx : List Byte
  /-- How the coming waits end, the next first; a wait beyond the list returns (R175, U10). -/
  waits : List WaitAnswer
  /-- How many free values have been drawn. -/
  draws : Nat
  /-- The step an operation is stuck in for good, if there is one (R175, U10). -/
  inProgress : Option Pending
  /-- What the last operation delivered to the host (R10). -/
  result : Option Result
  /-- All external events so far, oldest first (R44, R53). -/
  events : List Event
  deriving DecidableEq, Repr

/-- Faults: none. The document has no event that stops the block: an error is the result of an operation (R140,
R152) and the block then accepts the next one (R154). -/
inductive Fault where
  deriving DecidableEq, Repr

/-- Refusals. All are safe: the machine does not go on. -/
inductive Refusal where
  /-- Raised only by an arm of `exec` for an instruction without a meaning; no arm does. Safe. -/
  | notModelled (mnemonic : String)
  /-- Raised by `step` for a request that is no instruction (R81, U5; R84; R76). Safe. -/
  | undecodable (why : Reject)
  /-- Raised by `step` for a request presented while an operation is in progress (R169, U3). Safe. -/
  | operationInProgress
  deriving DecidableEq, Repr

/-- The state after reset (R161): SESSION Uninitialized (R26), RAIL_EN 0 (R27), MR at the parameter MR_RESET
(R23, log entry 1), nothing presented, no event (R160), idle. -/
def State.reset : State where
  mr := Vector.ofFn Config.mrReset
  session := .uninitialized
  railEn := false
  requests := []
  answers := []
  rx := []
  waits := []
  draws := 0
  inProgress := none
  result := none
  events := []

end Sys2Proof.Machine
end

