-- ==== Sys2Proof/Machine/Flags.lean ====
section
/-!
DEFINITION. The block's status values (`spec/10_state.md` R30), none of them stored: the data-ready test, ERRMASK,
the list of DecodeErrors it stands for, and the spec's numeric codes of error kinds and sessions.
-/
namespace Sys2Proof.Machine

/-- Ready iff the value is exactly 0x0001 (R77, R126). -/
def isReady (v : Word) : Bool := v == drdyTrue

/-- `mask[i] <- 1` (R110). -/
def setError (mask : ErrMask) (i : Fin 10) : ErrMask := mask ||| (1#10 <<< i.val)

/-- The document's `DecodeError[]`: one per set bit, in ascending field order (R30, R112). -/
def decodeErrors (mask : ErrMask) : List ErrorKind :=
  ((List.finRange 10).filter fun i => mask.getLsbD i.val).map ErrorKind.decodeError

/-- The numeric code of an error kind (R140, decision D15). -/
def errorCode : ErrorKind → Nat
  | .busAckError => 1
  | .busReadError => 2
  | .checksumError => 3
  | .decodeError _ => 4
  | .notReadyError => 5
  | .initFailure => 6
  | .partialReadError _ _ => 7

/-- The numeric code of a result: 0 for Ok (R140). -/
def resultCode : Result → Nat
  | .ok _ => 0
  | .error e => errorCode e

/-- The two-bit code of SESSION; 0b11 is no session (R24, decision D15). -/
def sessionCode : Session → BitVec 2
  | .uninitialized => 0b00
  | .measuring => 0b01
  | .stopped => 0b10

end Sys2Proof.Machine
end

