-- ==== Sys2Proof/Machine/Ops.lean ====
section
/-!
DEFINITION. The named operations over the state: registers (R21, R25, R27), the transport primitives BusWrite and BusRead
(R40, R41), Wait (R42), delivering a result, and raising an error, which is the block's way of taking an
exception (R152). There is no return from an error (R154).
-/
namespace Sys2Proof.Machine

/-- Append an external event (R53). -/
def State.emit (s : State) (e : Event) : State := { s with events := s.events ++ [e] }

/-- An operation begins: no result is out. -/
def State.start (s : State) : State := { s with result := none }

/-- `return v` (R9): the operation ends with the success result v. -/
def State.deliver (s : State) (v : Value) : State := { s with result := some (.ok v) }

/-- `raise E` (R9, R152): the error is the value the host receives; nothing is saved, no mode changes, no
control goes to a handler, and the block is idle again. -/
def State.raise (s : State) (e : ErrorKind) : State := { s with result := some (.error e) }

/-- `for i = 0 to 9: MR[i] <- next[i]` (R116, R128 step 9). -/
def State.writeRecord (s : State) (r : Record) : State := { s with mr := r }

/-- `SESSION <- v` (R25). -/
def State.setSession (s : State) (v : Session) : State := { s with session := v }

/-- `RAIL_EN <- b`, with its event even when the register holds b already (R27, R44). -/
def State.setRail (s : State) (b : Bool) : State :=
  { s with railEn := b }.emit (if b then .railOn else .railOff)

/-- The transport's answer to the next call: the next of `answers`, and a free one (success or failure)
when there is none (R43, U2). -/
def State.reply (s : State) : Reply :=
  match s.answers with
  | a :: _ => a
  | [] => if Config.freeReply s.draws then .ok else .failed

/-- The state once that answer has been taken. -/
def State.takeReply (s : State) : State :=
  match s.answers with
  | _ :: rest => { s with answers := rest }
  | [] => { s with draws := s.draws + 1 }

/-- The n bytes the next successful read brings: exactly n (R41), from `rx` and then free ones. -/
def State.received (s : State) (n : Nat) : Vector Byte n :=
  Vector.ofFn fun k => s.rx.getD k.val (Config.freeByte (s.draws + (k.val - s.rx.length)))

/-- The state once those n bytes have been taken. -/
def State.takeBytes (s : State) (n : Nat) : State :=
  { s with rx := s.rx.drop n, draws := s.draws + (n - s.rx.length) }

/-- The state once the next wait's ending has been taken. -/
def State.takeWait (s : State) : State := { s with waits := s.waits.tail }

/-- The step p never returns: the operation delivers no result and the block stays busy (R175, U10). -/
def State.hang (s : State) (p : Pending) : State := { s with inProgress := some p }

/-- `Wait(T)` (R42): an event and nothing else, and then what the operation does. A wait that never returns
leaves the block busy (U10), and its event, like a bus call's, is recorded only when the step is over. -/
def State.wait (s : State) (t : WaitName) (k : State → State) : State :=
  match s.waits.head? with
  | some .never => s.takeWait.hang (.wait t)
  | some .returns => k (s.takeWait.emit (.wait t))
  | none => k (s.takeWait.emit (.wait t))

/-- `BusWrite(frame)` (R40): one call with the complete frame, attempted once (R50), and then what the
operation does on `Ok` and on `NoAck`. -/
def State.busWrite (s : State) (frame : List Byte) (onOk onNoAck : State → State) : State :=
  match s.reply with
  | .ok => onOk (s.takeReply.emit (.write frame .ok))
  | .failed => onNoAck (s.takeReply.emit (.write frame .noAck))
  | .never => s.takeReply.hang (.call (.write frame))

/-- `BusRead(n)` (R41): one call, attempted once, and then what the operation does with the n bytes
and on `Fail`; a failed read yields no byte (R50). -/
def State.busRead (s : State) (n : Nat) (onOk : Vector Byte n → State → State) (onFail : State → State) :
    State :=
  match s.reply with
  | .ok =>
    let s := s.takeReply
    onOk (s.received n) ((s.takeBytes n).emit (.read n (.ok (s.received n).toList)))
  | .failed => onFail (s.takeReply.emit (.read n .fail))
  | .never => s.takeReply.hang (.call (.read n))

/-- What the host reads from MR[i]: only between operations (R21, R168); during one it is refused (U3). -/
def State.hostReadMr (s : State) (i : Fin 10) : Option Pattern :=
  match s.inProgress with
  | none => some s.mr[i]
  | some _ => none

/-- The same by the field's name (R11). -/
def State.hostReadField (s : State) (f : FieldId) : Option Pattern := s.hostReadMr (fieldIndex f)

/-- What the host reads from SESSION: only between operations (R25, R168, U3). -/
def State.hostReadSession (s : State) : Option Session :=
  match s.inProgress with
  | none => some s.session
  | some _ => none

/-- The transport capability an event records the use of, with the address the block hands over (R40, R41,
R51); the other events use none. -/
def transportCall : Event → Option (Byte × BusCall)
  | .write bytes _ => some (devAddr8, .write bytes)
  | .read n _ => some (devAddr8, .read n)
  | .railOn => none
  | .railOff => none
  | .wait _ => none

end Sys2Proof.Machine
end

