-- ==== Sys2Proof/Machine/Checksum.lean ====
section
/-!
DEFINITION. Unit U1, the Checksum Codec: the operation CRC8 (`spec/40_checksum.md` R91).
-/
namespace Sys2Proof.Machine

/-- CRC8 (R91): pure, cannot fail. -/
def execCrc8 (bytes : List Byte) (s : State) : Host.Outcome State Fault Refusal :=
  .next (s.start.deliver (.byte (crc8 bytes)))

end Sys2Proof.Machine
end

