-- ==== Sys2Proof/Machine/Decoder.lean ====
section
/-!
DEFINITION. Unit U3, the Measurement Decoder: the function DECODE (`spec/42_measurement_decoder.md` R110) and the
operation DECBLK (R116).
-/
namespace Sys2Proof.Machine

/-- Group i of the block (R48): both ResponseWords parsed, and their values joined, word A high (R110); `none` when
either fails. Every offset is computed from i. -/
def decodeGroup (buf : Block) (i : Fin 10) : Option Pattern :=
  match parseWord (buf[6 * i.val]'(by omega)) (buf[6 * i.val + 1]'(by omega)) (buf[6 * i.val + 2]'(by omega)),
    parseWord (buf[6 * i.val + 3]'(by omega)) (buf[6 * i.val + 4]'(by omega)) (buf[6 * i.val + 5]'(by omega)) with
  | some va, some vb => some (va ++ vb)
  | _, _ => none

/-- One iteration of R110's loop: the field is written, or its error bit is set and it stays stale (R112, R113). -/
def decodeStep (buf : Block) (acc : Record × ErrMask) (i : Fin 10) : Record × ErrMask :=
  match decodeGroup buf i with
  | some v => (acc.1.set i.val v i.isLt, acc.2)
  | none => (acc.1, setError acc.2 i)

/-- `DECODE(prior, buf)` (R110): all ten groups, collecting, not short-circuiting (R113). -/
def decodeBlock (prior : Record) (buf : Block) : Record × ErrMask :=
  (List.finRange 10).foldl (decodeStep buf) (prior, 0#10)

/-- DECBLK (R116): decodes into MR in place and returns the record and ERRMASK together. -/
def execDecblk (buf : Block) (s : State) : Host.Outcome State Fault Refusal :=
  let out := decodeBlock s.mr buf
  .next ((s.start.writeRecord out.1).deliver (.decoded out.1 out.2))

end Sys2Proof.Machine
end

