-- ==== Sys2Proof/Machine/Frame.lean ====
section
/-!
DEFINITION. Unit U2, the Frame Builder/Parser: BLDCMD, BLDARG and PRSWORD (`spec/41_frame.md`). All pure.
-/
namespace Sys2Proof.Machine

/-- BLDCMD (R100): any command word; builds, does not send. -/
def execBldcmd (cmd : Word) (s : State) : Host.Outcome State Fault Refusal :=
  .next (s.start.deliver (.frame (buildCmd cmd)))

/-- BLDARG (R102): any command word and argument; builds, does not send. -/
def execBldarg (cmd arg : Word) (s : State) : Host.Outcome State Fault Refusal :=
  .next (s.start.deliver (.frame (buildArg cmd arg)))

/-- PRSWORD (R104): the value, or ChecksumError without a value. -/
def execPrsword (w0 w1 w2 : Byte) (s : State) : Host.Outcome State Fault Refusal :=
  .next (match parseWord w0 w1 w2 with
    | some v => s.start.deliver (.word v)
    | none => s.start.raise .checksumError)

end Sys2Proof.Machine
end

