-- ==== Sys2Proof/Machine/Session.lean ====
section
/-!
DEFINITION. Unit U4, the Device Session State Machine: INIT, POLL, READ and DEINIT (`spec/43_session.md`). Steps in
order, each bus step attempted once (R122); no operation reads SESSION (R121). The rules' own decisions D5, D7, D8, D12,
D13 and D14 are followed: log entry 2.
-/
namespace Sys2Proof.Machine

/-- FWVER_QUERY (R125), best effort: on `NoAck` it gives up, the three bytes are discarded, and the operation goes
on with k in every case. -/
def fwverQuery (s : State) (k : State → State) : State :=
  s.busWrite (buildCmd wordFwver) (fun s => s.wait .fwver fun s => s.busRead 3 (fun _ s => k s) k) k

/-- Steps 4 to 7 of INIT (R124): the start frame is built now, by the rule of BLDARG. -/
def startMeasurement (s : State) : State :=
  s.busWrite (buildArg wordStart argStart) (fun s => (s.setSession .measuring).deliver .done)
    (fun s => s.raise .initFailure)

/-- INIT (R124). -/
def execInit (s : State) : Host.Outcome State Fault Refusal :=
  .next ((s.start.setRail true).wait .settle fun s => fwverQuery s startMeasurement)

/-- DRDY_QUERY (R127): raises BusAckError or BusReadError, else goes on with the 16-bit value. -/
def drdyQuery (s : State) (k : Word → State → State) : State :=
  s.busWrite (buildCmd wordDrdy)
    (fun s => s.wait .poll fun s =>
      s.busRead 2 (fun q s => k (be16 q[0] q[1]) s) (fun s => s.raise .busReadError))
    (fun s => s.raise .busAckError)

/-- POLL (R126). -/
def execPoll (s : State) : Host.Outcome State Fault Refusal :=
  .next (drdyQuery s.start fun v s => s.deliver (.ready (isReady v)))

/-- Steps 8 to 10 of READ (R128): decode into MR, then Ok or PartialReadError. -/
def finishRead (q : Block) (s : State) : State :=
  let out := decodeBlock s.mr q
  let s := s.writeRecord out.1
  if out.2 = 0 then s.deliver (.record out.1) else s.raise (.partialReadError out.2 out.1)

/-- Steps 3 to 10 of READ (R128). -/
def readMeasurement (s : State) : State :=
  s.busWrite (buildCmd wordRead)
    (fun s => s.wait .read fun s => s.busRead 60 finishRead (fun s => s.raise .busReadError))
    (fun s => s.raise .busAckError)

/-- READ (R128): it queries data-ready itself; not ready means no read-measurement command. -/
def execRead (s : State) : Host.Outcome State Fault Refusal :=
  .next (drdyQuery s.start fun v s => if isReady v then readMeasurement s else s.raise .notReadyError)

/-- Steps 2 to 4 of DEINIT (R130), which run whatever the stop command's answer was, and then its report. -/
def shutDown (s : State) (report : State → State) : State :=
  s.wait .stop fun s => report ((s.setRail false).setSession .stopped)

/-- DEINIT (R130): the write's outcome is reported after the clean-up. -/
def execDeinit (s : State) : Host.Outcome State Fault Refusal :=
  .next (s.start.busWrite (buildCmd wordStop) (fun s => shutDown s fun s => s.deliver .done)
    (fun s => shutDown s fun s => s.raise .busAckError))

end Sys2Proof.Machine
end

