-- ==== Sys2Proof/Machine/Wire.lean ====
section
/-!
DEFINITION. The six rows of the command map (`spec/30_encoding.md` R70 to R75). As an instruction a command word is the
fixed composition of R83, FRAME_START or FRAME(c): its frame is built and delivered, and nothing is sent, because the block
sends these frames only inside INIT, POLL, READ and DEINIT (R49), and CMD_RESET never (R74). DESIGN CHOICE, log entry 7.
What the sensor does with a frame is outside the block (R4 e).
-/
namespace Sys2Proof.Machine

/-- CMD_START (R70): FRAME_START with the row's argument. The checksum is recomputed (R56, R103), so the
instruction's own checksum byte is not used. -/
def execCmdStart (arg : Word) (_chk : Byte) (s : State) : Host.Outcome State Fault Refusal :=
  .next (s.start.deliver (.frame (buildArg wordStart arg)))

/-- CMD_DRDY (R71): FRAME(CMD_DRDY). -/
def execCmdDrdy (s : State) : Host.Outcome State Fault Refusal :=
  .next (s.start.deliver (.frame (buildCmd wordDrdy)))

/-- CMD_READ (R72): FRAME(CMD_READ). -/
def execCmdRead (s : State) : Host.Outcome State Fault Refusal :=
  .next (s.start.deliver (.frame (buildCmd wordRead)))

/-- CMD_STOP (R73): FRAME(CMD_STOP). -/
def execCmdStop (s : State) : Host.Outcome State Fault Refusal :=
  .next (s.start.deliver (.frame (buildCmd wordStop)))

/-- CMD_RESET (R74): FRAME(CMD_RESET); no operation sends it. -/
def execCmdReset (s : State) : Host.Outcome State Fault Refusal :=
  .next (s.start.deliver (.frame (buildCmd wordReset)))

/-- CMD_FWVER (R75): FRAME(CMD_FWVER). -/
def execCmdFwver (s : State) : Host.Outcome State Fault Refusal :=
  .next (s.start.deliver (.frame (buildCmd wordFwver)))

end Sys2Proof.Machine
end

