-- ==== Sys2Proof/Machine/Dispatch.lean ====
section
/-!
DEFINITION. One arm per row of the opcode table.
-/
namespace Sys2Proof.Machine

def exec (i : Instr) (s : State) : Host.Outcome State Fault Refusal :=
  match i with
  -- U1 and U2: checksum and frames
  | .crc8 bytes => Sys2Proof.Machine.execCrc8 bytes s
  | .bldcmd cmd => Sys2Proof.Machine.execBldcmd cmd s
  | .bldarg cmd arg => Sys2Proof.Machine.execBldarg cmd arg s
  | .prsword w0 w1 w2 => Sys2Proof.Machine.execPrsword w0 w1 w2 s
  -- U3: the decoder
  | .decblk buf => Sys2Proof.Machine.execDecblk buf s
  -- U4: the session
  | .init => Sys2Proof.Machine.execInit s
  | .poll => Sys2Proof.Machine.execPoll s
  | .read => Sys2Proof.Machine.execRead s
  | .deinit => Sys2Proof.Machine.execDeinit s
  -- the command map
  | .cmdStart arg chk => Sys2Proof.Machine.execCmdStart arg chk s
  | .cmdDrdy => Sys2Proof.Machine.execCmdDrdy s
  | .cmdRead => Sys2Proof.Machine.execCmdRead s
  | .cmdStop => Sys2Proof.Machine.execCmdStop s
  | .cmdReset => Sys2Proof.Machine.execCmdReset s
  | .cmdFwver => Sys2Proof.Machine.execCmdFwver s

end Sys2Proof.Machine
end

