-- ==== Sys2Proof/Machine/Step.lean ====
section
/-!
DEFINITION. One step: the host port accepts the next request, when no operation is in progress (R84, R168, R169),
and the operation runs to its result (R29, R53).
-/
namespace Sys2Proof.Machine

/-- One step. Nothing presented: the block waits, nothing changes. A request while an operation is in progress, or
one that is no instruction, is refused (R169, R81). Otherwise the request is taken and its instruction runs. -/
def step (s : State) : Host.Outcome State Fault Refusal :=
  match s.requests with
  | [] => .next s
  | r :: rest =>
    match s.inProgress with
    | some _ => .refused .operationInProgress
    | none =>
      match decode r with
      | .ok i => exec i { s with requests := rest }
      | .error why => .refused (.undecodable why)

/-- s with a word of the opcode table presented next, to an idle block (log entry 3). -/
def State.withFetchWord (s : State) (nbits w : Nat) : State :=
  match tableRequest nbits w with
  | some r => { s with requests := r :: s.requests, inProgress := none }
  | none => s

end Sys2Proof.Machine
end

