-- ==== Sys2Proof/Safety.lean ====
section
/-!
DEFINITION. What counts as a safe run, in the terms the claims use: the block's complete bus traffic (`spec/20_memory.md`
R49), the order of a command, its wait and its response (R54, `spec/43_session.md` R132), and how the control registers
go with the events (`spec/10_state.md` R24, R27). The bytes are written out from the tables of the spec.
-/
namespace Sys2Proof.Safety

open Sys2Proof.Machine

/-- The five frames the block ever sends (R49). -/
def sentFrames : List (List Byte) :=
  [[0xD1, 0x00], [0x00, 0x10, 0x03, 0x00, 0xAC], [0x02, 0x02], [0x03, 0x00], [0x01, 0x04]]

/-- The command a response of n bytes answers, and the wait between the two (R132). -/
def commandOf : Nat → Option (List Byte × WaitName)
  | 2 => some ([0x02, 0x02], .poll)
  | 60 => some ([0x03, 0x00], .read)
  | 3 => some ([0xD1, 0x00], .fwver)
  | _ => none

/-- An event the block may produce: a transfer of R49's list, and on a successful read exactly the bytes asked for (R41). -/
def LegalEvent : Event → Prop
  | .write bytes _ => bytes ∈ sentFrames
  | .read n (.ok bytes) => commandOf n ≠ none ∧ bytes.length = n
  | .read n .fail => commandOf n ≠ none
  | .railOn => True
  | .railOff => True
  | .wait _ => True

/-- Only legal events. -/
def TrafficLegal (evs : List Event) : Prop := ∀ e ∈ evs, LegalEvent e

/-- Every read is preceded, at once, by the acknowledged write of the command it answers and that command's wait (R132, R153). -/
def ReadsAnnounced (evs : List Event) : Prop :=
  ∀ pre n a post, evs = pre ++ .read n a :: post →
    ∃ before frame w, commandOf n = some (frame, w) ∧ pre = before ++ [.write frame .ok, .wait w]

/-- Every read-measurement command is preceded, at once, by a data-ready query that answered 0x0001 (R128, R145). -/
def ReadCommandsFollowReady (evs : List Event) : Prop :=
  ∀ pre a post, evs = pre ++ .write [0x03, 0x00] a :: post →
    ∃ before, pre = before ++ [.write [0x02, 0x02] .ok, .wait .poll, .read 2 (.ok [0x00, 0x01])]

/-- The level of the rail after these events, starting disabled (R27, R44). -/
def railAfter (evs : List Event) : Bool :=
  evs.foldl (fun b e => match e with
    | .railOn => true
    | .railOff => false
    | .wait _ => b
    | .write _ _ => b
    | .read _ _ => b) false

/-- RAIL_EN is what the rail events made it (R27). -/
def RailMatchesEvents (s : State) : Prop := s.railEn = railAfter s.events

/-- A measuring session has its rail enabled (R120, R124, R130). -/
def MeasuringIsPowered (s : State) : Prop := s.session = .measuring → s.railEn = true

/-- While an operation is in progress it has delivered no result (R175). -/
def BusyHasNoResult (s : State) : Prop := s.inProgress ≠ none → s.result = none

/-- The transport answers every call whose answer is written down (R175: the transport's duty); a free answer is never
silence (log entry 4). -/
def TransportReturns (s : State) : Prop := Reply.never ∉ s.answers

/-- Every wait whose ending is written down returns (R175: the environment's duty); one that is not returns too (log entry 5). -/
def WaitsReturn (s : State) : Prop := WaitAnswer.never ∉ s.waits

/-- Every transport call and every wait returns: the condition of R175. -/
def Returns (s : State) : Prop := TransportReturns s ∧ WaitsReturn s

/-- The parts of the state that no operation but INIT, READ, DECBLK and DEINIT writes (R21, R25, R27). -/
def SameRegisters (s t : State) : Prop := t.mr = s.mr ∧ t.session = s.session ∧ t.railEn = s.railEn

/-- What is the host's and not an operation's: the requests still to come, and whether the block is busy. -/
def SameHostSide (s t : State) : Prop := t.requests = s.requests ∧ t.inProgress = s.inProgress

end Sys2Proof.Safety
end

