-- ==== Sys2Proof/Certificates/Slice0/Obligations.lean ====
section
/-!
DEFINITION. The statements for the provers. Each docstring says which rule of spec/ it formalises. A next state written
as `{ s with … }` is the frame as well: every field not named is as before.
-/

open Sys2Proof Sys2Proof.Machine Sys2Proof.Safety

/-! Encoding and the host port. -/

/-- R80, R60, R61, R70 to R75: no operand is lost between the encoder and the decoder. The operand bytes are the model's
choice, log entry 3. -/
def Obligations.EncodedInstructionDecodesBack : Prop :=
  ∀ i : Instr, decode (encode i) = .ok i

/-- The other direction: every accepted request has one meaning and is the encoding of it. Log entry 3. -/
def Obligations.AcceptedRequestIsItsEncoding : Prop :=
  ∀ (r : Request) (i : Instr), decode r = .ok i → encode i = r

/-- The fifteen rows of the opcode table, each word written out, and two words that are no row (R62, R76, R81). -/
def Obligations.TableWordsDecodeToTheirRows : Prop :=
  decodeTableWord 8 0x0 = some (.crc8 []) ∧ decodeTableWord 8 0x1 = some (.bldcmd 0) ∧
  decodeTableWord 8 0x2 = some (.bldarg 0 0) ∧ decodeTableWord 8 0x3 = some (.prsword 0 0 0) ∧
  (∃ buf, decodeTableWord 8 0x4 = some (.decblk buf)) ∧ decodeTableWord 8 0x8 = some .init ∧
  decodeTableWord 8 0x9 = some .poll ∧ decodeTableWord 8 0xA = some .read ∧
  decodeTableWord 8 0xB = some .deinit ∧ decodeTableWord 40 0x00100300AC = some (.cmdStart 0x0300 0xAC) ∧
  decodeTableWord 16 0x0202 = some .cmdDrdy ∧ decodeTableWord 16 0x0300 = some .cmdRead ∧
  decodeTableWord 16 0x0104 = some .cmdStop ∧ decodeTableWord 16 0xD304 = some .cmdReset ∧
  decodeTableWord 16 0xD100 = some .cmdFwver ∧ decodeTableWord 8 0x5 = none ∧ decodeTableWord 16 0x0003 = none

/-- R81 (the spec's own decision D2, followed in log entry 2): a code that selects nothing is refused, so there
is no next state, no event and no result. -/
def Obligations.ReservedSelectionIsRefused : Prop :=
  ∀ (s : State) (c : BitVec 4) (operands : List Byte) (rest : List Request),
    c ∈ [0x5#4, 0x6#4, 0x7#4, 0xC#4, 0xD#4, 0xE#4, 0xF#4] →
    s.requests = .operation c operands :: rest → s.inProgress = none →
    step s = .refused (.undecodable (.reservedOpsel c))

/-- R80, R84, R116: operands of a length the selected operation does not take are refused, for every code
that selects an operation other than CRC8, whose operand has any length (R91). Log entry 3. -/
def Obligations.WrongOperandLengthIsRefused : Prop :=
  ∀ (s : State) (c : BitVec 4) (operands : List Byte) (rest : List Request),
    c ∈ [0x1#4, 0x2#4, 0x3#4, 0x4#4, 0x8#4, 0x9#4, 0xA#4, 0xB#4] → operands.length ≠ operandCount c →
    s.requests = .operation c operands :: rest → s.inProgress = none →
    step s = .refused (.undecodable (.notAnOperand c))

/-- A step takes the next request and is the execution of the instruction it decodes to. -/
def Obligations.StepRunsTheDecodedInstruction : Prop :=
  ∀ (s : State) (r : Request) (rest : List Request) (i : Instr),
    s.requests = r :: rest → s.inProgress = none → decode r = .ok i →
    step s = exec i { s with requests := rest }

/-- R169 (decision D11, log entry 5): an operation presented while one is in progress is refused; with nothing presented
a step changes nothing (log entry 3). -/
def Obligations.BusyBlockRefusesOperations : Prop :=
  (∀ (s : State) (r : Request) (rest : List Request) (p : Pending),
    s.requests = r :: rest → s.inProgress = some p → step s = .refused .operationInProgress) ∧
  ∀ s : State, s.requests = [] → step s = .next s

/-- R168, R21, R25: the host reads MR (by index, or by a field name of R11) and SESSION between operations, and not
during one. -/
def Obligations.HostReadsOnlyBetweenOperations : Prop :=
  ∀ s : State,
    (s.inProgress = none → (∀ i : Fin 10, s.hostReadMr i = some s.mr[i]) ∧
      s.hostReadField .mc1p0 = some s.mr[0] ∧ s.hostReadField .mc2p5 = some s.mr[1] ∧
      s.hostReadField .mc4p0 = some s.mr[2] ∧ s.hostReadField .mc10p0 = some s.mr[3] ∧
      s.hostReadField .nc0p5 = some s.mr[4] ∧ s.hostReadField .nc1p0 = some s.mr[5] ∧
      s.hostReadField .nc2p5 = some s.mr[6] ∧ s.hostReadField .nc4p0 = some s.mr[7] ∧
      s.hostReadField .nc10p0 = some s.mr[8] ∧ s.hostReadField .tps = some s.mr[9] ∧
      s.hostReadSession = some s.session) ∧
    (s.inProgress ≠ none → (∀ i : Fin 10, s.hostReadMr i = none) ∧
      (∀ f : FieldId, s.hostReadField f = none) ∧ s.hostReadSession = none)

/-- R40, R41, R51 (decision D3, log entry 2): every write event and every read event is a transport call with its bytes or its
count, and every call carries the one address DEV_ADDR8, whose upper seven bits are DEV_ADDR7 and whose bit 0 is clear; the
other events are no call. -/
def Obligations.EveryTransferAddressesTheDevice : Prop :=
  ∃ a : Byte, a.extractLsb' 1 7 = Config.devAddr7 ∧ a.getLsbD 0 = false ∧
    (∀ bytes answer, transportCall (.write bytes answer) = some (a, .write bytes)) ∧
    (∀ n answer, transportCall (.read n answer) = some (a, .read n)) ∧
    transportCall .railOn = none ∧ transportCall .railOff = none ∧ ∀ w, transportCall (.wait w) = none

/-! Reset. -/

/-- R26. -/
def Obligations.ResetSessionIsUninitialized : Prop := State.reset.session = .uninitialized

/-- R161: RAIL_EN is 0 (decision D7, log entry 2), MR[i] is the parameter MR_RESET[i] (decision D6, log entry 1),
no event has happened (R160) and the block is idle. -/
def Obligations.ResetRailRegistersAndEvents : Prop :=
  State.reset.railEn = false ∧ (∀ i : Fin 10, State.reset.mr[i] = Config.mrReset i) ∧
  State.reset.events = [] ∧ State.reset.inProgress = none

/-- R160, R161: the invariants below hold at reset. That RAIL_EN is 0, as the empty event list says, is decision D7 (log entry
2); that the block is idle and has delivered nothing is the model's choice (log entries 5 and 6). -/
def Obligations.ResetMeetsTheInvariants : Prop :=
  TrafficLegal State.reset.events ∧ ReadsAnnounced State.reset.events ∧
  ReadCommandsFollowReady State.reset.events ∧ RailMatchesEvents State.reset ∧
  MeasuringIsPowered State.reset ∧ BusyHasNoResult State.reset

/-! U1, the Checksum Codec. -/

/-- R90: the operation delivers one function f of the bytes, which starts at 0xFF and for each further byte exclusive-ors
it in and runs eight rounds; nothing else changes. The rounds are written out here. -/
def Obligations.Crc8FollowsTheRoundProcedure : Prop :=
  ∃ f : List Byte → Byte,
    (∀ (bytes : List Byte) (s : State),
      exec (.crc8 bytes) s = .next { s with result := some (.ok (.byte (f bytes))) }) ∧
    f [] = 0xFF ∧
    ∀ (bytes : List Byte) (b : Byte),
      f (bytes ++ [b]) =
        (fun acc : Byte => if acc.msb then (acc <<< 1) ^^^ 0x31#8 else acc <<< 1)^[8] (f bytes ^^^ b)

/-- R93 d: for a fixed prefix, distinct last bytes give distinct checksums and every checksum is reached. -/
def Obligations.Crc8LastByteIsABijection : Prop :=
  ∀ bytes : List Byte, Function.Bijective fun b : Byte => crc8 (bytes ++ [b])

/-- R93 e: the step of a byte depends on the exclusive-or alone, is linear over it, and keeps 0. -/
def Obligations.CrcStepIsLinear : Prop :=
  (∀ a b : Byte, crcStep a b = crcStep 0 (a ^^^ b)) ∧ crcStep 0 0 = 0 ∧
  ∀ a b : Byte, crcStep 0 (a ^^^ b) = crcStep 0 a ^^^ crcStep 0 b

/-! U2, frames and ResponseWords. -/

/-- R67: BE16 and BYTES16 are mutually inverse, and BE16(b0, b1) is 256*b0 + b1. -/
def Obligations.BigEndianWordsRoundTrip : Prop :=
  (∀ v : Word, ∃ b0 b1 : Byte, bytes16 v = [b0, b1] ∧ be16 b0 b1 = v) ∧
  ∀ b0 b1 : Byte, bytes16 (be16 b0 b1) = [b0, b1] ∧ (be16 b0 b1).toNat = 256 * b0.toNat + b1.toNat

/-- R100, R101: two bytes, the high one first, for every command word; nothing is sent, nothing else changes. -/
def Obligations.BldcmdDeliversTheCommandBigEndian : Prop :=
  ∀ (cmd : Word) (s : State), ∃ b0 b1 : Byte,
    exec (.bldcmd cmd) s = .next { s with result := some (.ok (.frame [b0, b1])) } ∧
    256 * b0.toNat + b1.toNat = cmd.toNat

/-- R102: command, argument and the checksum of the argument bytes alone, for every pair; nothing is sent, nothing else
changes. -/
def Obligations.BldargAppendsTheArgumentChecksum : Prop :=
  ∀ (cmd arg : Word) (s : State), ∃ c1 c0 a1 a0 : Byte,
    exec (.bldarg cmd arg) s =
      .next { s with result := some (.ok (.frame [c1, c0, a1, a0, crc8 [a1, a0]])) } ∧
    256 * c1.toNat + c0.toNat = cmd.toNat ∧ 256 * a1.toNat + a0.toNat = arg.toNat

/-- R103: every frame delivered or sent has two bytes, or five whose last is the checksum of bytes 2 and 3; a
delivered one has five exactly when its instruction carries an argument. R103 speaks of BLDCMD and BLDARG; that a row
of the command map (CMD_START) delivers a frame, with its checksum recomputed, is the model's choice (log entry 7). -/
def Obligations.FramesCarryAChecksumIffAnArgument : Prop :=
  ∀ (i : Instr) (s t : State), exec i s = .next t →
    (∀ fr, t.result = some (.ok (.frame fr)) →
      (((∃ cmd arg, i = .bldarg cmd arg) ∨ ∃ arg chk, i = .cmdStart arg chk) ∧
        ∃ c1 c0 a1 a0 : Byte, fr = [c1, c0, a1, a0, crc8 [a1, a0]]) ∨
      ((∀ cmd arg, i ≠ .bldarg cmd arg) ∧ (∀ arg chk, i ≠ .cmdStart arg chk) ∧ fr.length = 2)) ∧
    ∀ new fr answer, t.events = s.events ++ new → Event.write fr answer ∈ new →
      fr.length = 2 ∨ ∃ c1 c0 a1 a0 : Byte, fr = [c1, c0, a1, a0, crc8 [a1, a0]]

/-- R105 (and R104): the value whenever the third byte is the checksum of the first two, else ChecksumError, for all
three bytes; nothing else changes. -/
def Obligations.PrswordAcceptsExactlyTheChecksum : Prop :=
  ∀ (w0 w1 w2 : Byte) (s : State),
    exec (.prsword w0 w1 w2) s = .next { s with
      result := some (if w2 = crc8 [w0, w1] then .ok (.word (be16 w0 w1)) else .error .checksumError) }

/-- R78: one third byte and only one is accepted for each data value. -/
def Obligations.OneChecksumByteIsAcceptedPerWord : Prop :=
  ∀ (w0 w1 : Byte) (s : State),
    ∃! w2 : Byte, ∃ t v, exec (.prsword w0 w1 w2) s = .next t ∧ t.result = some (.ok (.word v))

/-! U3, the Measurement Decoder. -/

/-- R110: field i of the outcome is the big-endian value of group i's four data bytes when both its checksums match, else the
prior value with bit i of the mask set; nothing else enters it. -/
def Obligations.DecodeTreatsEachGroupOnItsOwn : Prop :=
  ∀ (prior : Record) (buf : Block) (i : Fin 10),
    let b (k : Fin 6) : Byte := buf[6 * i.val + k.val]'(by omega)
    let good : Bool := crc8 [b 0, b 1] == b 2 && crc8 [b 3, b 4] == b 5
    (decodeBlock prior buf).1[i] = (if good then be32 (b 0) (b 1) (b 3) (b 4) else prior[i]) ∧
    (decodeBlock prior buf).2.getLsbD i.val = !good

/-- R116: DECBLK decodes into MR in place (decision D21, log entry 2) and delivers the record and ERRMASK; no event; nothing
else changes. -/
def Obligations.DecblkDecodesIntoMr : Prop :=
  ∀ (buf : Block) (s : State), exec (.decblk buf) s = .next { s with
    mr := (decodeBlock s.mr buf).1
    result := some (.ok (.decoded (decodeBlock s.mr buf).1 (decodeBlock s.mr buf).2)) }

/-- R114: whatever ten patterns a block carries, they are stored bit-exactly, whatever MR held. -/
def Obligations.EveryPatternIsStoredBitExactly : Prop :=
  ∀ prior r : Record, decodeBlock prior (blockOf r) = (r, 0)

/-- R117: (a) zero data with each checksum 0x81 gives ten zeros and no error; (b) a correct block whose byte 11 is changed
to any other value gives one error, for field 1, mc2.5, and the other nine fields. -/
def Obligations.CorruptedChecksumSpoilsOneField : Prop :=
  (∀ prior : Record, decodeBlock prior (Vector.ofFn fun k => if k.val % 3 = 2 then 0x81#8 else 0#8) =
    (Vector.replicate 10 0#32, 0)) ∧
  ∀ (prior r : Record) (k : Byte), k ≠ (blockOf r)[11] →
    decodeBlock prior ((blockOf r).set 11 k) = (r.set 1 prior[1], 0x002) ∧
    decodeErrors 0x002 = [.decodeError (fieldIndex .mc2p5)]

/-- R30, R112 (decision D16, log entry 2): the error list is the set bits of the mask in strictly ascending order. -/
def Obligations.DecodeErrorsListTheFailedFields : Prop :=
  ∀ mask : ErrMask, ∃ l : List (Fin 10), decodeErrors mask = l.map ErrorKind.decodeError ∧
    l.Pairwise (· < ·) ∧ ∀ i : Fin 10, i ∈ l ↔ mask.getLsbD i.val = true

/-! U4, the Device Session State Machine. -/

/-- R124, R125 (decisions D5, D20, log entry 2): every answer a success and both waits return. -/
def Obligations.InitStartsMeasuring : Prop :=
  ∀ (s : State) (rest : List Reply) (f0 f1 f2 : Byte) (more : List Byte),
    WaitAnswer.never ∉ s.waits.take 2 → s.answers = .ok :: .ok :: .ok :: rest → s.rx = f0 :: f1 :: f2 :: more →
    exec .init s = .next { s with
      answers := rest, rx := more, waits := s.waits.drop 2
      railEn := true, session := .measuring, result := some (.ok .done)
      events := s.events ++ [.railOn, .wait .settle, .write [0xD1, 0x00] .ok, .wait .fwver,
        .read 3 (.ok [f0, f1, f2]), .write [0x00, 0x10, 0x03, 0x00, 0xAC] .ok] }

/-- R124, R125, R120 (decisions D5, D7, D8, log entry 2): every run of INIT where everything returns (log entries 4 and 5). The
query's outcome changes events only; the answer a to the start frame decides the result and SESSION. -/
def Obligations.InitOutcomes : Prop :=
  ∀ s : State, Returns s → ∃ t query a,
    exec .init s = .next t ∧
    (query = [.write [0xD1, 0x00] .noAck] ∨
      query = [.write [0xD1, 0x00] .ok, .wait .fwver, .read 3 .fail] ∨
      ∃ f0 f1 f2, query = [.write [0xD1, 0x00] .ok, .wait .fwver, .read 3 (.ok [f0, f1, f2])]) ∧
    t.events = s.events ++
      ([.railOn, .wait .settle] ++ query ++ [.write [0x00, 0x10, 0x03, 0x00, 0xAC] a]) ∧
    t.railEn = true ∧ t.mr = s.mr ∧ SameHostSide s t ∧
    t.session = (if a = .ok then .measuring else s.session) ∧
    t.result = some (if a = .ok then .ok .done else .error .initFailure)

/-- R124, R125 (decisions D5, D7, D8, log entry 2), V41 to V43a: which answer decides what. A transport that fails the query's
write or read changes events alone, and one that fails the start frame ends INIT in InitFailure with SESSION as it was. -/
def Obligations.InitFollowsTheAnswers : Prop :=
  ∀ (s : State) (rest : List Reply),
    (WaitAnswer.never ∉ s.waits.take 2 →
      (∀ (f0 f1 f2 : Byte) (more : List Byte), s.answers = .ok :: .ok :: .failed :: rest →
        s.rx = f0 :: f1 :: f2 :: more → exec .init s = .next { s with
          answers := rest, rx := more, waits := s.waits.drop 2
          railEn := true, result := some (.error .initFailure)
          events := s.events ++ [.railOn, .wait .settle, .write [0xD1, 0x00] .ok, .wait .fwver,
            .read 3 (.ok [f0, f1, f2]), .write [0x00, 0x10, 0x03, 0x00, 0xAC] .noAck] }) ∧
      (s.answers = .ok :: .failed :: .ok :: rest → exec .init s = .next { s with
        answers := rest, waits := s.waits.drop 2
        railEn := true, session := .measuring, result := some (.ok .done)
        events := s.events ++ [.railOn, .wait .settle, .write [0xD1, 0x00] .ok, .wait .fwver,
          .read 3 .fail, .write [0x00, 0x10, 0x03, 0x00, 0xAC] .ok] }) ∧
      (s.answers = .ok :: .failed :: .failed :: rest → exec .init s = .next { s with
        answers := rest, waits := s.waits.drop 2
        railEn := true, result := some (.error .initFailure)
        events := s.events ++ [.railOn, .wait .settle, .write [0xD1, 0x00] .ok, .wait .fwver,
          .read 3 .fail, .write [0x00, 0x10, 0x03, 0x00, 0xAC] .noAck] })) ∧
    (WaitAnswer.never ∉ s.waits.take 1 →
      (s.answers = .failed :: .ok :: rest → exec .init s = .next { s with
        answers := rest, waits := s.waits.drop 1
        railEn := true, session := .measuring, result := some (.ok .done)
        events := s.events ++ [.railOn, .wait .settle, .write [0xD1, 0x00] .noAck,
          .write [0x00, 0x10, 0x03, 0x00, 0xAC] .ok] }) ∧
      (s.answers = .failed :: .failed :: rest → exec .init s = .next { s with
        answers := rest, waits := s.waits.drop 1
        railEn := true, result := some (.error .initFailure)
        events := s.events ++ [.railOn, .wait .settle, .write [0xD1, 0x00] .noAck,
          .write [0x00, 0x10, 0x03, 0x00, 0xAC] .noAck] }))

/-- R146: INIT ends in InitFailure exactly when the start frame was not acknowledged, SESSION is then not written, and no
other operation ends so. That SESSION stays also when it was Measuring or Stopped is decision D8 (log entry 2). -/
def Obligations.InitFailureMeansStartNotAcknowledged : Prop :=
  ∀ (i : Instr) (s t : State), exec i s = .next t →
    (t.result = some (.error .initFailure) ↔
      i = .init ∧ t.events.getLast? = some (.write [0x00, 0x10, 0x03, 0x00, 0xAC] .noAck)) ∧
    (t.result = some (.error .initFailure) → t.session = s.session)

/-- R127: in POLL and in READ, a NoAck ends the operation with BusAckError at once, a failed read ends it with BusReadError,
and otherwise the value goes on to the operation. That POLL returns bus errors is decision D13 and that READ queries is
decision D12 (log entry 2). -/
def Obligations.DrdyQueryRaisesTheFirstFailure : Prop :=
  ∀ (s : State) (i : Instr) (rest : List Reply), i = .poll ∨ i = .read →
    (s.answers = .failed :: rest → exec i s = .next { s with
      answers := rest, result := some (.error .busAckError)
      events := s.events ++ [.write [0x02, 0x02] .noAck] }) ∧
    (WaitAnswer.never ∉ s.waits.take 1 →
      (s.answers = .ok :: .failed :: rest → exec i s = .next { s with
        answers := rest, waits := s.waits.drop 1, result := some (.error .busReadError)
        events := s.events ++ [.write [0x02, 0x02] .ok, .wait .poll, .read 2 .fail] }) ∧
      ∀ (b0 b1 : Byte) (more : List Byte), s.answers = .ok :: .ok :: rest → s.rx = b0 :: b1 :: more →
        exec i s = .next (
          let s' := { s with
            answers := rest, rx := more, waits := s.waits.drop 1, result := none
            events := s.events ++ [.write [0x02, 0x02] .ok, .wait .poll, .read 2 (.ok [b0, b1])] }
          if i = .poll then { s' with result := some (.ok (.ready (be16 b0 b1 == 0x0001))) }
          else if be16 b0 b1 = 0x0001 then readMeasurement s'
          else { s' with result := some (.error .notReadyError) }))

/-- R77: POLL says ready exactly on the big-endian value 1; every other value is a success too, with false. -/
def Obligations.OnlyOneMeansReady : Prop :=
  ∀ (s : State) (rest : List Reply) (b0 b1 : Byte) (more : List Byte),
    WaitAnswer.never ∉ s.waits.take 1 → s.answers = .ok :: .ok :: rest → s.rx = b0 :: b1 :: more →
    ∃ t, exec .poll s = .next t ∧
      t.result = some (.ok (.ready (decide (256 * b0.toNat + b1.toNat = 1))))

/-- R126 (decision D13, log entry 2): every run of POLL where everything returns (log entries 4 and 5); no register is
written. -/
def Obligations.PollOutcomes : Prop :=
  ∀ s : State, Returns s → ∃ t new,
    exec .poll s = .next t ∧ t.events = s.events ++ new ∧ SameRegisters s t ∧ SameHostSide s t ∧
    ((new = [.write [0x02, 0x02] .noAck] ∧ t.result = some (.error .busAckError)) ∨
      (new = [.write [0x02, 0x02] .ok, .wait .poll, .read 2 .fail] ∧
        t.result = some (.error .busReadError)) ∨
      ∃ b0 b1, new = [.write [0x02, 0x02] .ok, .wait .poll, .read 2 (.ok [b0, b1])] ∧
        t.result = some (.ok (.ready (be16 b0 b1 == 0x0001))))

/-- R128 (decision D12, log entry 2): ready, every bus call a success, and both waits return. -/
def Obligations.ReadDeliversTheDecodedBlock : Prop :=
  ∀ (s : State) (rest : List Reply) (q : Block) (more : List Byte), WaitAnswer.never ∉ s.waits.take 2 →
    s.answers = .ok :: .ok :: .ok :: .ok :: rest → s.rx = 0x00 :: 0x01 :: (q.toList ++ more) →
    let next := (decodeBlock s.mr q).1
    let mask := (decodeBlock s.mr q).2
    exec .read s = .next { s with
      mr := next, answers := rest, rx := more, waits := s.waits.drop 2
      result := some (if mask = 0 then .ok (.record next) else .error (.partialReadError mask next))
      events := s.events ++ [.write [0x02, 0x02] .ok, .wait .poll, .read 2 (.ok [0x00, 0x01]),
        .write [0x03, 0x00] .ok, .wait .read, .read 60 (.ok q.toList)] }

/-- R128 steps 4 and 7 (decision D12, log entry 2), V53, V54: after a ready answer, a NoAck to the read command ends READ with
BusAckError, and a failed 60-byte read ends it with BusReadError; MR is untouched. -/
def Obligations.ReadFailsAfterReady : Prop :=
  ∀ (s : State) (rest : List Reply) (more : List Byte), s.rx = 0x00 :: 0x01 :: more →
    (WaitAnswer.never ∉ s.waits.take 1 → s.answers = .ok :: .ok :: .failed :: rest →
      exec .read s = .next { s with
        answers := rest, rx := more, waits := s.waits.drop 1, result := some (.error .busAckError)
        events := s.events ++ [.write [0x02, 0x02] .ok, .wait .poll, .read 2 (.ok [0x00, 0x01]),
          .write [0x03, 0x00] .noAck] }) ∧
    (WaitAnswer.never ∉ s.waits.take 2 → s.answers = .ok :: .ok :: .ok :: .failed :: rest →
      exec .read s = .next { s with
        answers := rest, rx := more, waits := s.waits.drop 2, result := some (.error .busReadError)
        events := s.events ++ [.write [0x02, 0x02] .ok, .wait .poll, .read 2 (.ok [0x00, 0x01]),
          .write [0x03, 0x00] .ok, .wait .read, .read 60 .fail] })

/-- R128, R150 (decision D12, log entry 2): every run of READ where everything returns (log entries 4 and 5), the checks
in their order. SESSION and RAIL_EN are not
written, and MR only by the last case. -/
def Obligations.ReadOutcomes : Prop :=
  ∀ s : State, Returns s → ∃ t new,
    exec .read s = .next t ∧ t.events = s.events ++ new ∧ SameHostSide s t ∧
    t.session = s.session ∧ t.railEn = s.railEn ∧
    ((t.mr = s.mr ∧ new = [.write [0x02, 0x02] .noAck] ∧ t.result = some (.error .busAckError)) ∨
      (t.mr = s.mr ∧ new = [.write [0x02, 0x02] .ok, .wait .poll, .read 2 .fail] ∧
        t.result = some (.error .busReadError)) ∨
      (∃ b0 b1, t.mr = s.mr ∧ be16 b0 b1 ≠ 0x0001 ∧
        new = [.write [0x02, 0x02] .ok, .wait .poll, .read 2 (.ok [b0, b1])] ∧
        t.result = some (.error .notReadyError)) ∨
      ∃ tail, new = [.write [0x02, 0x02] .ok, .wait .poll, .read 2 (.ok [0x00, 0x01])] ++ tail ∧
        ((t.mr = s.mr ∧ tail = [.write [0x03, 0x00] .noAck] ∧ t.result = some (.error .busAckError)) ∨
          (t.mr = s.mr ∧ tail = [.write [0x03, 0x00] .ok, .wait .read, .read 60 .fail] ∧
            t.result = some (.error .busReadError)) ∨
          ∃ (q : Block) (mask : ErrMask), t.mr = (decodeBlock s.mr q).1 ∧ mask = (decodeBlock s.mr q).2 ∧
            tail = [.write [0x03, 0x00] .ok, .wait .read, .read 60 (.ok q.toList)] ∧
            t.result = some (if mask = 0 then .ok (.record t.mr)
              else .error (.partialReadError mask t.mr))))

/-- R145: READ ends in NotReadyError exactly when the data-ready value it read was not 1, and then no read-measurement
command was written; no other operation ends so. That the value is read inside READ is decision D12 (log entry 2). -/
def Obligations.NotReadyMeansNoReadCommand : Prop :=
  ∀ (i : Instr) (s t : State), exec i s = .next t →
    (t.result = some (.error .notReadyError) ↔
      i = .read ∧ ∃ b0 b1 new, be16 b0 b1 ≠ 0x0001 ∧ t.events = s.events ++ new ∧
        new.getLast? = some (.read 2 (.ok [b0, b1]))) ∧
    (t.result = some (.error .notReadyError) → ∀ new answer, t.events = s.events ++ new →
      Event.write [0x03, 0x00] answer ∉ new)

/-- R147: PartialReadError is the result of READ alone, when sixty bytes were received and DECODE's mask is not zero; it
carries that mask and the updated record; every other error leaves MR as it was. -/
def Obligations.PartialReadIsTheOnlyErrorThatUpdatesMr : Prop :=
  ∀ (i : Instr) (s t : State) (e : ErrorKind), exec i s = .next t → t.result = some (.error e) →
    match e with
    | .partialReadError mask record =>
      i = .read ∧ mask ≠ 0 ∧ t.mr = record ∧
        ∃ q : Block, t.events.getLast? = some (.read 60 (.ok q.toList)) ∧
          (decodeBlock s.mr q).1 = record ∧ (decodeBlock s.mr q).2 = mask
    | _ => t.mr = s.mr

/-- R129: after READ's `Ok` every field comes from this block; after PartialReadError(mask) a field does when its bit is 0 and
else is what it was before; after any other error no field changed. -/
def Obligations.FreshnessAfterRead : Prop :=
  ∀ (s t : State), exec .read s = .next t →
    match t.result with
    | some (.ok _) => ∃ q : Block, t.events.getLast? = some (.read 60 (.ok q.toList)) ∧
        ∀ i : Fin 10, decodeGroup q i = some t.mr[i]
    | some (.error (.partialReadError mask _)) =>
        ∃ q : Block, t.events.getLast? = some (.read 60 (.ok q.toList)) ∧
          ∀ i : Fin 10, if mask.getLsbD i.val then t.mr[i] = s.mr[i] else decodeGroup q i = some t.mr[i]
    | some (.error _) => t.mr = s.mr
    | none => t.mr = s.mr

/-- R130 (decision D14, log entry 2): every run of DEINIT where everything returns (log entries 4 and 5): the stop write, the
wait, the rail off, SESSION Stopped, and the write's answer a as the result. The last clauses say that a is the transport's
(V56, V57). -/
def Obligations.DeinitAlwaysDisablesTheRail : Prop :=
  (∀ s : State, Returns s → ∃ t a,
    exec .deinit s = .next t ∧
    t.events = s.events ++ [.write [0x01, 0x04] a, .wait .stop, .railOff] ∧
    t.railEn = false ∧ t.session = .stopped ∧ t.mr = s.mr ∧ SameHostSide s t ∧
    t.result = some (if a = .ok then .ok .done else .error .busAckError)) ∧
  ∀ (s : State) (rest : List Reply), WaitAnswer.never ∉ s.waits.take 1 →
    (s.answers = .ok :: rest → exec .deinit s = .next { s with
      answers := rest, waits := s.waits.drop 1, railEn := false, session := .stopped, result := some (.ok .done)
      events := s.events ++ [.write [0x01, 0x04] .ok, .wait .stop, .railOff] }) ∧
    (s.answers = .failed :: rest → exec .deinit s = .next { s with
      answers := rest, waits := s.waits.drop 1, railEn := false, session := .stopped
      result := some (.error .busAckError)
      events := s.events ++ [.write [0x01, 0x04] .noAck, .wait .stop, .railOff] })

/-- R70 to R75, R83: each row of the command map delivers its frame, sends nothing and changes nothing else. The spec gives
these rows no operation: log entry 7. -/
def Obligations.CommandRowsDeliverTheirFrames : Prop :=
  ∀ s : State,
    (∀ (a1 a0 k : Byte), exec (.cmdStart (be16 a1 a0) k) s =
      .next { s with result := some (.ok (.frame [0x00, 0x10, a1, a0, crc8 [a1, a0]])) }) ∧
    crc8 [0x03, 0x00] = 0xAC ∧
    exec .cmdDrdy s = .next { s with result := some (.ok (.frame [0x02, 0x02])) } ∧
    exec .cmdRead s = .next { s with result := some (.ok (.frame [0x03, 0x00])) } ∧
    exec .cmdStop s = .next { s with result := some (.ok (.frame [0x01, 0x04])) } ∧
    exec .cmdReset s = .next { s with result := some (.ok (.frame [0xD3, 0x04])) } ∧
    exec .cmdFwver s = .next { s with result := some (.ok (.frame [0xD1, 0x00])) }

/-! Whole-machine rules. -/

/-- R143, R144: ChecksumError is the result of PRSWORD alone, on a third byte that is not the checksum, and DecodeError is no
operation's result. -/
def Obligations.ChecksumErrorComesOnlyFromPrsword : Prop :=
  ∀ (i : Instr) (s t : State), exec i s = .next t →
    (t.result = some (.error .checksumError) ↔
      ∃ w0 w1 w2, i = .prsword w0 w1 w2 ∧ crc8 [w0, w1] ≠ w2) ∧
    ∀ f, t.result ≠ some (.error (.decodeError f))

/-- R141, R142: each bus error is the result exactly when the transfer it reports was answered so: BusAckError in POLL, READ and,
after the clean-up, DEINIT; BusReadError in POLL and READ, and then no byte was used. INIT raises neither: a NoAck to its
start frame is InitFailure. POLL's bus errors are decision D13, READ's query D12, DEINIT's clean-up D14 (log entry 2). -/
def Obligations.BusErrorsReportTheirTransfer : Prop :=
  ∀ (i : Instr) (s t : State), exec i s = .next t →
    (t.result = some (.error .busAckError) ↔ ∃ new, t.events = s.events ++ new ∧
      ((i = .poll ∧ new.getLast? = some (.write [0x02, 0x02] .noAck)) ∨
      (i = .read ∧ (new.getLast? = some (.write [0x02, 0x02] .noAck) ∨
        new.getLast? = some (.write [0x03, 0x00] .noAck))) ∨
      (i = .deinit ∧ new = [.write [0x01, 0x04] .noAck, .wait .stop, .railOff]))) ∧
    (t.result = some (.error .busReadError) ↔ ∃ new, t.events = s.events ++ new ∧
      ((i = .poll ∧ new.getLast? = some (.read 2 .fail)) ∨
      (i = .read ∧ (new.getLast? = some (.read 2 .fail) ∨ new.getLast? = some (.read 60 .fail))))) ∧
    (t.result = some (.error .busReadError) → t.mr = s.mr) ∧
    ∀ new, t.events = s.events ++ new → i = .init →
      Event.write [0x00, 0x10, 0x03, 0x00, 0xAC] .noAck ∈ new → t.result = some (.error .initFailure)

/-- R153: after a write that was not acknowledged the operation reads nothing more, and waits no more except in DEINIT; a read
that fails changes no field. -/
def Obligations.FailedTransferIsNotInterpreted : Prop :=
  ∀ (i : Instr) (s t : State) (new : List Event), exec i s = .next t → t.events = s.events ++ new →
    (∀ pre frame post, new = pre ++ .write frame .noAck :: post →
      (∀ n answer, Event.read n answer ∉ post) ∧ (i ≠ .deinit → ∀ w, Event.wait w ∉ post)) ∧
    ∀ n, Event.read n .fail ∈ new → t.mr = s.mr

/-- R25: SESSION is written only by INIT, to Measuring and on success, and by DEINIT, to Stopped, always; the others neither
write nor read it; the host reads it between operations. SESSION after a failed INIT is decision D8, Stopped after an
unacknowledged stop D14, and that no operation reads it D10 (log entry 2). -/
def Obligations.SessionIsWrittenOnlyByInitAndDeinit : Prop :=
  (∀ (i : Instr) (s t : State), exec i s = .next t →
    t.session = (if i = .init ∧ t.result = some (.ok .done) then .measuring
      else if i = .deinit ∧ t.result ≠ none then .stopped else s.session)) ∧
  (∀ (i : Instr) (s t : State) (v : Session), i ≠ .init → i ≠ .deinit → exec i s = .next t →
    exec i { s with session := v } = .next { t with session := v }) ∧
  ∀ s : State, s.inProgress = none → s.hostReadSession = some s.session

/-- R27: RAIL_EN is written to 1 by every INIT, whatever follows, and to 0 by every DEINIT that gets past its wait; nothing else
writes it, each write is an event, even when the register holds the value already (decision D20), and there is no other rail
event. That a failed INIT leaves it 1 is decision D7, and DEINIT's order D14 (log entry 2); a step that never returns is log
entry 5. -/
def Obligations.RailIsWrittenOnlyByInitAndDeinit : Prop :=
  ∀ (i : Instr) (s t : State), exec i s = .next t →
    t.railEn = (if i = .init then true else if i = .deinit ∧ t.result ≠ none then false else s.railEn) ∧
    ∀ new, t.events = s.events ++ new →
      (Event.railOn ∈ new ↔ i = .init) ∧ (Event.railOff ∈ new ↔ i = .deinit ∧ t.result ≠ none)

/-- R121 (decision D10, log entry 2): no operation is gated by SESSION or RAIL_EN: from two states that differ only there, every
operation gives the same result, the same events, the same MR and consumes the same answers. -/
def Obligations.SessionAndRailGateNothing : Prop :=
  ∀ (i : Instr) (s t : State) (v : Session) (b : Bool), exec i s = .next t →
    ∃ v' b', exec i { s with session := v, railEn := b } = .next { t with session := v', railEn := b' }

/-- R30, R32, R56: nothing leaks from earlier operations: what was delivered and what happened before changes neither the
outcome nor the new events, and earlier events are never rewritten (R53). -/
def Obligations.PastResultsAndEventsInfluenceNothing : Prop :=
  ∀ (i : Instr) (s t : State) (past : List Event) (r : Option Result), exec i s = .next t →
    ∃ new, t.events = s.events ++ new ∧
      exec i { s with events := past, result := r } = .next { t with events := past ++ new }

/-- R21: MR is written only by DECODE, in READ on the block just received and in DECBLK on its operand (decision D21, log entry
2), and both return the record. -/
def Obligations.MrIsWrittenOnlyByDecode : Prop :=
  ∀ (i : Instr) (s t : State), exec i s = .next t →
    t.mr = s.mr ∨ ∃ (q : Block) (mask : ErrMask),
      t.mr = (decodeBlock s.mr q).1 ∧ mask = (decodeBlock s.mr q).2 ∧
      ((i = .decblk q ∧ t.result = some (.ok (.decoded t.mr mask))) ∨
        (i = .read ∧ t.events.getLast? = some (.read 60 (.ok q.toList)) ∧
          (t.result = some (.ok (.record t.mr)) ∨ t.result = some (.error (.partialReadError mask t.mr)))))

/-- R44, R83: an operation other than the four session operations produces no event and touches nothing but the result and,
for DECBLK alone, MR (decision D21, log entry 2). For the rows of the command map this is the model's choice (log entry 7). -/
def Obligations.PureOperationsProduceNoEvent : Prop :=
  ∀ (i : Instr) (s t : State), i ≠ .init → i ≠ .poll → i ≠ .read → i ≠ .deinit → exec i s = .next t →
    t = { s with result := t.result, mr := t.mr } ∧ t.result ≠ none ∧
    ((∀ buf, i ≠ .decblk buf) → t.mr = s.mr)

/-- R175, R152: when every transport call and every wait returns, which are R175's two conditions, every operation ends with
a result, stuck in nothing, so that an idle block accepts the next operation. A free answer is never silence (log entry
4), and a wait whose ending is not written down returns (log entry 5). -/
def Obligations.EveryOperationEndsWhenTheTransportReturns : Prop :=
  ∀ (i : Instr) (s : State), Returns s →
    ∃ t, exec i s = .next t ∧ t.result ≠ none ∧ SameHostSide s t ∧ Returns t

/-- R175, U10 (log entry 5): each bus call of each operation, when it is never answered, leaves the block busy in it, without
a result; only the steps before it took place. The order of the calls is decisions D5 and D12 (log entry 2). -/
def Obligations.UnansweredCallLeavesTheBlockBusy : Prop :=
  ∀ (s : State) (rest : List Reply),
    (WaitAnswer.never ∉ s.waits.take 1 →
      (s.answers = .never :: rest → exec .init s = .next { s with
        answers := rest, waits := s.waits.drop 1, railEn := true, result := none
        inProgress := some (.call (.write [0xD1, 0x00]))
        events := s.events ++ [.railOn, .wait .settle] }) ∧
      (s.answers = .failed :: .never :: rest → exec .init s = .next { s with
        answers := rest, waits := s.waits.drop 1, railEn := true, result := none
        inProgress := some (.call (.write [0x00, 0x10, 0x03, 0x00, 0xAC]))
        events := s.events ++ [.railOn, .wait .settle, .write [0xD1, 0x00] .noAck] })) ∧
    (WaitAnswer.never ∉ s.waits.take 2 →
      (s.answers = .ok :: .never :: rest → exec .init s = .next { s with
        answers := rest, waits := s.waits.drop 2, railEn := true, result := none
        inProgress := some (.call (.read 3))
        events := s.events ++ [.railOn, .wait .settle, .write [0xD1, 0x00] .ok, .wait .fwver] }) ∧
      (s.answers = .ok :: .failed :: .never :: rest → exec .init s = .next { s with
        answers := rest, waits := s.waits.drop 2, railEn := true, result := none
        inProgress := some (.call (.write [0x00, 0x10, 0x03, 0x00, 0xAC]))
        events := s.events ++ [.railOn, .wait .settle, .write [0xD1, 0x00] .ok, .wait .fwver, .read 3 .fail] }) ∧
      ∀ (f0 f1 f2 : Byte) (more : List Byte), s.answers = .ok :: .ok :: .never :: rest →
        s.rx = f0 :: f1 :: f2 :: more → exec .init s = .next { s with
          answers := rest, rx := more, waits := s.waits.drop 2, railEn := true, result := none
          inProgress := some (.call (.write [0x00, 0x10, 0x03, 0x00, 0xAC]))
          events := s.events ++ [.railOn, .wait .settle, .write [0xD1, 0x00] .ok, .wait .fwver,
            .read 3 (.ok [f0, f1, f2])] }) ∧
    (∀ i : Instr, i = .poll ∨ i = .read →
      (s.answers = .never :: rest → exec i s = .next { s with
        answers := rest, result := none, inProgress := some (.call (.write [0x02, 0x02])) }) ∧
      (WaitAnswer.never ∉ s.waits.take 1 → s.answers = .ok :: .never :: rest → exec i s = .next { s with
        answers := rest, waits := s.waits.drop 1, result := none, inProgress := some (.call (.read 2))
        events := s.events ++ [.write [0x02, 0x02] .ok, .wait .poll] })) ∧
    (∀ more : List Byte, s.rx = 0x00 :: 0x01 :: more →
      (WaitAnswer.never ∉ s.waits.take 1 → s.answers = .ok :: .ok :: .never :: rest →
        exec .read s = .next { s with
          answers := rest, rx := more, waits := s.waits.drop 1, result := none
          inProgress := some (.call (.write [0x03, 0x00]))
          events := s.events ++ [.write [0x02, 0x02] .ok, .wait .poll, .read 2 (.ok [0x00, 0x01])] }) ∧
      (WaitAnswer.never ∉ s.waits.take 2 → s.answers = .ok :: .ok :: .ok :: .never :: rest →
        exec .read s = .next { s with
          answers := rest, rx := more, waits := s.waits.drop 2, result := none
          inProgress := some (.call (.read 60))
          events := s.events ++ [.write [0x02, 0x02] .ok, .wait .poll, .read 2 (.ok [0x00, 0x01]),
            .write [0x03, 0x00] .ok, .wait .read] })) ∧
    (s.answers = .never :: rest → exec .deinit s = .next { s with
      answers := rest, result := none, inProgress := some (.call (.write [0x01, 0x04])) })

/-- R175, U10 (log entry 5): each wait of each operation, when it never returns, leaves the block busy in it, without
a result; only the steps before it took place: in DEINIT the rail is not yet off. The places of the waits in INIT and
DEINIT are decisions D5 and D14 (log entry 2). -/
def Obligations.EndlessWaitLeavesTheBlockBusy : Prop :=
  ∀ (s : State) (rest : List Reply) (later : List WaitAnswer),
    (s.waits = .never :: later →
      exec .init s = .next { s with
        waits := later, railEn := true, result := none, inProgress := some (.wait .settle)
        events := s.events ++ [.railOn] } ∧
      (s.answers = .ok :: rest →
        (∀ i : Instr, i = .poll ∨ i = .read → exec i s = .next { s with
          answers := rest, waits := later, result := none, inProgress := some (.wait .poll)
          events := s.events ++ [.write [0x02, 0x02] .ok] }) ∧
        exec .deinit s = .next { s with
          answers := rest, waits := later, result := none, inProgress := some (.wait .stop)
          events := s.events ++ [.write [0x01, 0x04] .ok] }) ∧
      (s.answers = .failed :: rest → exec .deinit s = .next { s with
        answers := rest, waits := later, result := none, inProgress := some (.wait .stop)
        events := s.events ++ [.write [0x01, 0x04] .noAck] })) ∧
    (s.waits = .returns :: .never :: later →
      (s.answers = .ok :: rest → exec .init s = .next { s with
        answers := rest, waits := later, railEn := true, result := none, inProgress := some (.wait .fwver)
        events := s.events ++ [.railOn, .wait .settle, .write [0xD1, 0x00] .ok] }) ∧
      ∀ more : List Byte, s.answers = .ok :: .ok :: .ok :: rest → s.rx = 0x00 :: 0x01 :: more →
        exec .read s = .next { s with
          answers := rest, rx := more, waits := later, result := none, inProgress := some (.wait .read)
          events := s.events ++ [.write [0x02, 0x02] .ok, .wait .poll, .read 2 (.ok [0x00, 0x01]),
            .write [0x03, 0x00] .ok] })

/-- R175, R122: the most transfers and waits each operation makes; in particular no command is retried. INIT's read and second
wait are decision D5, READ's query D12 (log entry 2). -/
def Obligations.OperationsMakeBoundedTransfers : Prop :=
  ∀ (i : Instr) (s t : State) (new : List Event), exec i s = .next t → t.events = s.events ++ new →
    let writes := new.countP fun e => match e with
      | .write _ _ => true
      | _ => false
    let reads := new.countP fun e => match e with
      | .read _ _ => true
      | _ => false
    let waits := new.countP fun e => match e with
      | .wait _ => true
      | _ => false
    (i = .init → writes ≤ 2 ∧ reads ≤ 1 ∧ waits ≤ 2) ∧ (i = .poll → writes ≤ 1 ∧ reads ≤ 1 ∧ waits ≤ 1) ∧
    (i = .read → writes ≤ 2 ∧ reads ≤ 2 ∧ waits ≤ 2) ∧ (i = .deinit → writes ≤ 1 ∧ reads = 0 ∧ waits ≤ 1) ∧
    ∀ frame a b pre mid post, new ≠ pre ++ .write frame a :: mid ++ .write frame b :: post

/-! Invariants that every step keeps, from every state that has them. -/

/-- R49, R41: only the transfers of the list, only with exactly the bytes asked for. That the Reset command is not among them
(R74) is decision D18, and the 3-byte read is D5 (log entry 2). -/
def Obligations.StepKeepsTrafficLegal : Prop :=
  [0xD3#8, 0x04#8] ∉ sentFrames ∧
  ∀ s t : State, TrafficLegal s.events → step s = .next t → TrafficLegal t.events

/-- R132, R54, R153: a response is read only right after its command was acknowledged and its wait took place. The firmware
query's wait and length are decision D5 (log entry 2). -/
def Obligations.StepKeepsReadsAnnounced : Prop :=
  ∀ s t : State, ReadsAnnounced s.events → step s = .next t → ReadsAnnounced t.events

/-- R128, R145: a read-measurement command is sent only right after a data-ready query that answered 1. That READ queries is
decision D12 (log entry 2). -/
def Obligations.StepKeepsReadCommandsAfterReady : Prop :=
  ∀ s t : State, ReadCommandsFollowReady s.events → step s = .next t → ReadCommandsFollowReady t.events

/-- R27, R120, R124, R130: RAIL_EN is what the rail events made it, starting disabled (decision D7), and a measuring session
has its rail enabled (decisions D7, D8, D14; log entry 2). -/
def Obligations.StepKeepsTheRailConsistent : Prop :=
  ∀ s t : State, RailMatchesEvents s → MeasuringIsPowered s → step s = .next t →
    RailMatchesEvents t ∧ MeasuringIsPowered t

/-- R175 (log entry 5): an operation in progress has delivered no result. -/
def Obligations.StepKeepsBusyWithoutResult : Prop :=
  ∀ s t : State, BusyHasNoResult s → step s = .next t → BusyHasNoResult t
end

