-- ==== Sys2Proof/Laws/Operands.lean ====
section
/-!
SUPPORT. Byte order: BE16 and BYTES16 taken apart (R67), and the bits of ERRMASK.
-/
namespace Sys2Proof.Machine

@[simp] theorem be16_hiByte_loByte (v : Word) : be16 (hiByte v) (loByte v) = v := by
  simp only [be16, hiByte, loByte]; ext i; simp; grind

@[simp] theorem hiByte_be16 (b0 b1 : Byte) : hiByte (be16 b0 b1) = b0 := by
  simp only [be16, hiByte]; ext i; simp; grind

@[simp] theorem loByte_be16 (b0 b1 : Byte) : loByte (be16 b0 b1) = b1 := by
  simp only [be16, loByte]; ext i; simp; grind

theorem be16_toNat (b0 b1 : Byte) : (be16 b0 b1).toNat = 256 * b0.toNat + b1.toNat := by
  unfold be16
  rw [BitVec.toNat_append, ← Nat.shiftLeft_add_eq_or_of_lt b1.isLt, Nat.shiftLeft_eq, Nat.mul_comm]

/-- Setting bit i sets bit i and no other. -/
theorem setError_bit (mask : ErrMask) (i j : Fin 10) :
    (setError mask i).getLsbD j.val = (mask.getLsbD j.val || decide (i = j)) := by
  unfold setError
  rw [BitVec.getLsbD_or]
  congr 1
  revert i j
  decide

end Sys2Proof.Machine
end

