-- ==== Sys2Proof/Laws/Decoder.lean ====
section
/-!
SUPPORT. What DECODE does to one field, whatever happens in the other groups (R110, R113).
-/
namespace Sys2Proof.Machine

/-- The loop over any list of distinct groups, at field j. -/
theorem decodeFold_field (buf : Block) (l : List (Fin 10)) (hn : l.Nodup) (acc : Record × ErrMask) (j : Fin 10) :
    (l.foldl (decodeStep buf) acc).1[j] =
      (if j ∈ l then (decodeGroup buf j).getD acc.1[j] else acc.1[j]) ∧
    (l.foldl (decodeStep buf) acc).2.getLsbD j.val =
      (acc.2.getLsbD j.val || (decide (j ∈ l) && (decodeGroup buf j).isNone)) := by
  induction l generalizing acc with
  | nil => simp
  | cons i l ih =>
    have ⟨h1, h2⟩ := List.nodup_cons.1 hn
    obtain ⟨e1, e2⟩ := ih h2 (decodeStep buf acc i)
    rw [List.foldl_cons, e1, e2]
    unfold decodeStep
    by_cases hij : i = j
    · subst hij
      cases hg : decodeGroup buf i <;> simp [h1, setError_bit]
    · have hij' : j ≠ i := fun h => hij h.symm
      have hv : i.val ≠ j.val := fun h => hij (Fin.ext h)
      have := setError_bit acc.2 i j
      cases hg : decodeGroup buf i <;> simp_all

/-- Field i after DECODE: the group's pattern, or the prior value when the group failed. -/
theorem decodeBlock_field (prior : Record) (buf : Block) (i : Fin 10) :
    (decodeBlock prior buf).1[i] = (decodeGroup buf i).getD prior[i] := by
  simpa [decodeBlock] using (decodeFold_field buf _ (List.nodup_finRange 10) (prior, 0#10) i).1

/-- Bit i of the mask: whether the group failed. -/
theorem decodeBlock_mask (prior : Record) (buf : Block) (i : Fin 10) :
    (decodeBlock prior buf).2.getLsbD i.val = (decodeGroup buf i).isNone := by
  simpa [decodeBlock] using (decodeFold_field buf _ (List.nodup_finRange 10) (prior, 0#10) i).2

end Sys2Proof.Machine
end

