-- ==== Sys2Proof/Laws/State.lean ====
section
/-!
SUPPORT. What each update of the state does to each field, so that no later proof unfolds a record update.
-/
namespace Sys2Proof.Machine

@[simp] theorem State.emit_mr (s : State) (e : Event) : (s.emit e).mr = s.mr := rfl
@[simp] theorem State.emit_session (s : State) (e : Event) : (s.emit e).session = s.session := rfl
@[simp] theorem State.emit_railEn (s : State) (e : Event) : (s.emit e).railEn = s.railEn := rfl
@[simp] theorem State.emit_requests (s : State) (e : Event) : (s.emit e).requests = s.requests := rfl
@[simp] theorem State.emit_answers (s : State) (e : Event) : (s.emit e).answers = s.answers := rfl
@[simp] theorem State.emit_rx (s : State) (e : Event) : (s.emit e).rx = s.rx := rfl
@[simp] theorem State.emit_waits (s : State) (e : Event) : (s.emit e).waits = s.waits := rfl
@[simp] theorem State.emit_draws (s : State) (e : Event) : (s.emit e).draws = s.draws := rfl
@[simp] theorem State.emit_inProgress (s : State) (e : Event) : (s.emit e).inProgress = s.inProgress := rfl
@[simp] theorem State.emit_result (s : State) (e : Event) : (s.emit e).result = s.result := rfl
@[simp] theorem State.emit_events (s : State) (e : Event) : (s.emit e).events = s.events ++ [e] := rfl

@[simp] theorem State.start_mr (s : State) : s.start.mr = s.mr := rfl
@[simp] theorem State.start_session (s : State) : s.start.session = s.session := rfl
@[simp] theorem State.start_railEn (s : State) : s.start.railEn = s.railEn := rfl
@[simp] theorem State.start_requests (s : State) : s.start.requests = s.requests := rfl
@[simp] theorem State.start_answers (s : State) : s.start.answers = s.answers := rfl
@[simp] theorem State.start_rx (s : State) : s.start.rx = s.rx := rfl
@[simp] theorem State.start_waits (s : State) : s.start.waits = s.waits := rfl
@[simp] theorem State.start_draws (s : State) : s.start.draws = s.draws := rfl
@[simp] theorem State.start_inProgress (s : State) : s.start.inProgress = s.inProgress := rfl
@[simp] theorem State.start_result (s : State) : s.start.result = none := rfl
@[simp] theorem State.start_events (s : State) : s.start.events = s.events := rfl

@[simp] theorem State.deliver_mr (s : State) (v : Value) : (s.deliver v).mr = s.mr := rfl
@[simp] theorem State.deliver_session (s : State) (v : Value) : (s.deliver v).session = s.session := rfl
@[simp] theorem State.deliver_railEn (s : State) (v : Value) : (s.deliver v).railEn = s.railEn := rfl
@[simp] theorem State.deliver_requests (s : State) (v : Value) : (s.deliver v).requests = s.requests := rfl
@[simp] theorem State.deliver_answers (s : State) (v : Value) : (s.deliver v).answers = s.answers := rfl
@[simp] theorem State.deliver_rx (s : State) (v : Value) : (s.deliver v).rx = s.rx := rfl
@[simp] theorem State.deliver_waits (s : State) (v : Value) : (s.deliver v).waits = s.waits := rfl
@[simp] theorem State.deliver_draws (s : State) (v : Value) : (s.deliver v).draws = s.draws := rfl
@[simp] theorem State.deliver_inProgress (s : State) (v : Value) : (s.deliver v).inProgress = s.inProgress := rfl
@[simp] theorem State.deliver_result (s : State) (v : Value) : (s.deliver v).result = some (.ok v) := rfl
@[simp] theorem State.deliver_events (s : State) (v : Value) : (s.deliver v).events = s.events := rfl

@[simp] theorem State.raise_mr (s : State) (e : ErrorKind) : (s.raise e).mr = s.mr := rfl
@[simp] theorem State.raise_session (s : State) (e : ErrorKind) : (s.raise e).session = s.session := rfl
@[simp] theorem State.raise_railEn (s : State) (e : ErrorKind) : (s.raise e).railEn = s.railEn := rfl
@[simp] theorem State.raise_requests (s : State) (e : ErrorKind) : (s.raise e).requests = s.requests := rfl
@[simp] theorem State.raise_answers (s : State) (e : ErrorKind) : (s.raise e).answers = s.answers := rfl
@[simp] theorem State.raise_rx (s : State) (e : ErrorKind) : (s.raise e).rx = s.rx := rfl
@[simp] theorem State.raise_waits (s : State) (e : ErrorKind) : (s.raise e).waits = s.waits := rfl
@[simp] theorem State.raise_draws (s : State) (e : ErrorKind) : (s.raise e).draws = s.draws := rfl
@[simp] theorem State.raise_inProgress (s : State) (e : ErrorKind) : (s.raise e).inProgress = s.inProgress := rfl
@[simp] theorem State.raise_result (s : State) (e : ErrorKind) : (s.raise e).result = some (.error e) := rfl
@[simp] theorem State.raise_events (s : State) (e : ErrorKind) : (s.raise e).events = s.events := rfl

@[simp] theorem State.writeRecord_mr (s : State) (r : Record) : (s.writeRecord r).mr = r := rfl
@[simp] theorem State.writeRecord_session (s : State) (r : Record) : (s.writeRecord r).session = s.session := rfl
@[simp] theorem State.writeRecord_railEn (s : State) (r : Record) : (s.writeRecord r).railEn = s.railEn := rfl
@[simp] theorem State.writeRecord_requests (s : State) (r : Record) : (s.writeRecord r).requests = s.requests := rfl
@[simp] theorem State.writeRecord_answers (s : State) (r : Record) : (s.writeRecord r).answers = s.answers := rfl
@[simp] theorem State.writeRecord_rx (s : State) (r : Record) : (s.writeRecord r).rx = s.rx := rfl
@[simp] theorem State.writeRecord_waits (s : State) (r : Record) : (s.writeRecord r).waits = s.waits := rfl
@[simp] theorem State.writeRecord_draws (s : State) (r : Record) : (s.writeRecord r).draws = s.draws := rfl
@[simp] theorem State.writeRecord_inProgress (s : State) (r : Record) : (s.writeRecord r).inProgress = s.inProgress := rfl
@[simp] theorem State.writeRecord_result (s : State) (r : Record) : (s.writeRecord r).result = s.result := rfl
@[simp] theorem State.writeRecord_events (s : State) (r : Record) : (s.writeRecord r).events = s.events := rfl

@[simp] theorem State.setSession_mr (s : State) (v : Session) : (s.setSession v).mr = s.mr := rfl
@[simp] theorem State.setSession_session (s : State) (v : Session) : (s.setSession v).session = v := rfl
@[simp] theorem State.setSession_railEn (s : State) (v : Session) : (s.setSession v).railEn = s.railEn := rfl
@[simp] theorem State.setSession_requests (s : State) (v : Session) : (s.setSession v).requests = s.requests := rfl
@[simp] theorem State.setSession_answers (s : State) (v : Session) : (s.setSession v).answers = s.answers := rfl
@[simp] theorem State.setSession_rx (s : State) (v : Session) : (s.setSession v).rx = s.rx := rfl
@[simp] theorem State.setSession_waits (s : State) (v : Session) : (s.setSession v).waits = s.waits := rfl
@[simp] theorem State.setSession_draws (s : State) (v : Session) : (s.setSession v).draws = s.draws := rfl
@[simp] theorem State.setSession_inProgress (s : State) (v : Session) : (s.setSession v).inProgress = s.inProgress := rfl
@[simp] theorem State.setSession_result (s : State) (v : Session) : (s.setSession v).result = s.result := rfl
@[simp] theorem State.setSession_events (s : State) (v : Session) : (s.setSession v).events = s.events := rfl

@[simp] theorem State.setRail_mr (s : State) (b : Bool) : (s.setRail b).mr = s.mr := rfl
@[simp] theorem State.setRail_session (s : State) (b : Bool) : (s.setRail b).session = s.session := rfl
@[simp] theorem State.setRail_railEn (s : State) (b : Bool) : (s.setRail b).railEn = b := rfl
@[simp] theorem State.setRail_requests (s : State) (b : Bool) : (s.setRail b).requests = s.requests := rfl
@[simp] theorem State.setRail_answers (s : State) (b : Bool) : (s.setRail b).answers = s.answers := rfl
@[simp] theorem State.setRail_rx (s : State) (b : Bool) : (s.setRail b).rx = s.rx := rfl
@[simp] theorem State.setRail_waits (s : State) (b : Bool) : (s.setRail b).waits = s.waits := rfl
@[simp] theorem State.setRail_draws (s : State) (b : Bool) : (s.setRail b).draws = s.draws := rfl
@[simp] theorem State.setRail_inProgress (s : State) (b : Bool) : (s.setRail b).inProgress = s.inProgress := rfl
@[simp] theorem State.setRail_result (s : State) (b : Bool) : (s.setRail b).result = s.result := rfl
@[simp] theorem State.setRail_events (s : State) (b : Bool) : (s.setRail b).events = s.events ++ [if b then .railOn else .railOff] := rfl

@[simp] theorem State.takeBytes_mr (s : State) (n : Nat) : (s.takeBytes n).mr = s.mr := rfl
@[simp] theorem State.takeBytes_session (s : State) (n : Nat) : (s.takeBytes n).session = s.session := rfl
@[simp] theorem State.takeBytes_railEn (s : State) (n : Nat) : (s.takeBytes n).railEn = s.railEn := rfl
@[simp] theorem State.takeBytes_requests (s : State) (n : Nat) : (s.takeBytes n).requests = s.requests := rfl
@[simp] theorem State.takeBytes_answers (s : State) (n : Nat) : (s.takeBytes n).answers = s.answers := rfl
@[simp] theorem State.takeBytes_rx (s : State) (n : Nat) : (s.takeBytes n).rx = s.rx.drop n := rfl
@[simp] theorem State.takeBytes_waits (s : State) (n : Nat) : (s.takeBytes n).waits = s.waits := rfl
@[simp] theorem State.takeBytes_draws (s : State) (n : Nat) : (s.takeBytes n).draws = s.draws + (n - s.rx.length) := rfl
@[simp] theorem State.takeBytes_inProgress (s : State) (n : Nat) : (s.takeBytes n).inProgress = s.inProgress := rfl
@[simp] theorem State.takeBytes_result (s : State) (n : Nat) : (s.takeBytes n).result = s.result := rfl
@[simp] theorem State.takeBytes_events (s : State) (n : Nat) : (s.takeBytes n).events = s.events := rfl

@[simp] theorem State.hang_mr (s : State) (c : Pending) : (s.hang c).mr = s.mr := rfl
@[simp] theorem State.hang_session (s : State) (c : Pending) : (s.hang c).session = s.session := rfl
@[simp] theorem State.hang_railEn (s : State) (c : Pending) : (s.hang c).railEn = s.railEn := rfl
@[simp] theorem State.hang_requests (s : State) (c : Pending) : (s.hang c).requests = s.requests := rfl
@[simp] theorem State.hang_answers (s : State) (c : Pending) : (s.hang c).answers = s.answers := rfl
@[simp] theorem State.hang_rx (s : State) (c : Pending) : (s.hang c).rx = s.rx := rfl
@[simp] theorem State.hang_waits (s : State) (c : Pending) : (s.hang c).waits = s.waits := rfl
@[simp] theorem State.hang_draws (s : State) (c : Pending) : (s.hang c).draws = s.draws := rfl
@[simp] theorem State.hang_inProgress (s : State) (c : Pending) : (s.hang c).inProgress = some c := rfl
@[simp] theorem State.hang_result (s : State) (c : Pending) : (s.hang c).result = s.result := rfl
@[simp] theorem State.hang_events (s : State) (c : Pending) : (s.hang c).events = s.events := rfl

@[simp] theorem State.takeWait_mr (s : State) : s.takeWait.mr = s.mr := rfl
@[simp] theorem State.takeWait_session (s : State) : s.takeWait.session = s.session := rfl
@[simp] theorem State.takeWait_railEn (s : State) : s.takeWait.railEn = s.railEn := rfl
@[simp] theorem State.takeWait_requests (s : State) : s.takeWait.requests = s.requests := rfl
@[simp] theorem State.takeWait_answers (s : State) : s.takeWait.answers = s.answers := rfl
@[simp] theorem State.takeWait_rx (s : State) : s.takeWait.rx = s.rx := rfl
@[simp] theorem State.takeWait_waits (s : State) : s.takeWait.waits = s.waits.tail := rfl
@[simp] theorem State.takeWait_draws (s : State) : s.takeWait.draws = s.draws := rfl
@[simp] theorem State.takeWait_inProgress (s : State) : s.takeWait.inProgress = s.inProgress := rfl
@[simp] theorem State.takeWait_result (s : State) : s.takeWait.result = s.result := rfl
@[simp] theorem State.takeWait_events (s : State) : s.takeWait.events = s.events := rfl

@[simp] theorem State.takeReply_mr (s : State) : s.takeReply.mr = s.mr := by
  unfold State.takeReply; split <;> rfl
@[simp] theorem State.takeReply_session (s : State) : s.takeReply.session = s.session := by
  unfold State.takeReply; split <;> rfl
@[simp] theorem State.takeReply_railEn (s : State) : s.takeReply.railEn = s.railEn := by
  unfold State.takeReply; split <;> rfl
@[simp] theorem State.takeReply_requests (s : State) : s.takeReply.requests = s.requests := by
  unfold State.takeReply; split <;> rfl
@[simp] theorem State.takeReply_rx (s : State) : s.takeReply.rx = s.rx := by
  unfold State.takeReply; split <;> rfl
@[simp] theorem State.takeReply_waits (s : State) : s.takeReply.waits = s.waits := by
  unfold State.takeReply; split <;> rfl
@[simp] theorem State.takeReply_inProgress (s : State) : s.takeReply.inProgress = s.inProgress := by
  unfold State.takeReply; split <;> rfl
@[simp] theorem State.takeReply_result (s : State) : s.takeReply.result = s.result := by
  unfold State.takeReply; split <;> rfl
@[simp] theorem State.takeReply_events (s : State) : s.takeReply.events = s.events := by
  unfold State.takeReply; split <;> rfl

/-- The answers are taken from the front. -/
@[simp] theorem State.takeReply_answers (s : State) : s.takeReply.answers = s.answers.tail := by
  unfold State.takeReply; split <;> simp_all

/-- A free value is drawn only when the answers have run out. -/
theorem State.takeReply_draws (s : State) :
    s.takeReply.draws = if s.answers = [] then s.draws + 1 else s.draws := by
  unfold State.takeReply; split <;> simp_all

end Sys2Proof.Machine
end

