-- ==== Sys2Proof/Laws/Ops.lean ====
section
/-!
SUPPORT. For each shared operation, once, everything it can do: the transport's answers, the wait and the two bus primitives.
-/
namespace Sys2Proof.Machine

open Sys2Proof.Safety

/-- The next answer, when one is written down. -/
theorem State.reply_cons {s : State} {a : Reply} {rest : List Reply} (h : s.answers = a :: rest) :
    s.reply = a := by
  simp [State.reply, h]

/-- Taking an answer that is written down takes it and nothing else. -/
theorem State.takeReply_cons {s : State} {a : Reply} {rest : List Reply} (h : s.answers = a :: rest) :
    s.takeReply = { s with answers := rest } := by
  simp [State.takeReply, h]

/-- The bytes of a read, when they are all written down. -/
theorem State.received_append {s : State} {n : Nat} {q : Vector Byte n} {more : List Byte}
    (h : s.rx = q.toList ++ more) : s.received n = q := by
  refine Vector.ext fun k hk => ?_
  simp [State.received, h, List.getElem?_append_left]

/-- Taking bytes that are written down takes them and nothing else. -/
theorem State.takeBytes_append {s : State} {n : Nat} {q : Vector Byte n} {more : List Byte}
    (h : s.rx = q.toList ++ more) : s.takeBytes n = { s with rx := more } := by
  simp [State.takeBytes, h]

/-- A transport that returns answers this call. -/
theorem reply_ne_never {s : State} (h : TransportReturns s) : s.reply ≠ .never := by
  unfold State.reply
  split
  · intro hc
    simp_all [TransportReturns]
  · split <;> simp

/-- A wait that does not end as `never` returns. -/
theorem State.wait_returns {s : State} (h : s.waits.head? ≠ some .never) (t : WaitName) (k : State → State) :
    s.wait t k = k (s.takeWait.emit (.wait t)) := by
  unfold State.wait
  split
  · exact absurd ‹_› h
  · rfl
  · rfl

theorem State.wait_never {s : State} (h : s.waits.head? = some .never) (t : WaitName) (k : State → State) :
    s.wait t k = s.takeWait.hang (.wait t) := by
  simp [State.wait, h]

/-- Everything a Wait can do: go on after one wait event, or never return. -/
theorem State.wait_cases (s : State) (t : WaitName) (k : State → State) :
    (s.waits.head? ≠ some .never ∧ s.wait t k = k (s.takeWait.emit (.wait t))) ∨
    (s.waits.head? = some .never ∧ s.wait t k = s.takeWait.hang (.wait t)) := by
  by_cases h : s.waits.head? = some .never
  · exact .inr ⟨h, State.wait_never h t k⟩
  · exact .inl ⟨h, State.wait_returns h t k⟩

/-- Where the waits return, the next one does. -/
theorem waitsReturn_head {s : State} (h : WaitsReturn s) : s.waits.head? ≠ some .never :=
  fun hc => h (List.mem_of_mem_head? hc)

/-- Where the next k + 1 waits return, the next one does, and the k after it. -/
theorem head_returns {ws : List WaitAnswer} {k : Nat} (h : .never ∉ ws.take (k + 1)) : ws.head? ≠ some .never := by
  cases ws <;> simp_all [eq_comm]

theorem tail_returns {ws : List WaitAnswer} {k : Nat} (h : .never ∉ ws.take (k + 1)) : .never ∉ ws.tail.take k := by
  cases ws <;> simp_all

/-- Everything goes on returning while answers and waits are only taken, from the front. -/
theorem returns_of_suffix {s t : State} (h : Returns s) (ha : t.answers <:+ s.answers)
    (hw : t.waits <:+ s.waits) : Returns t :=
  ⟨fun hc => h.1 (ha.mem hc), fun hc => h.2 (hw.mem hc)⟩

theorem State.busWrite_ok {s : State} (h : s.reply = .ok) (frame : List Byte) (f g : State → State) :
    s.busWrite frame f g = f (s.takeReply.emit (.write frame .ok)) := by
  simp [State.busWrite, h]

theorem State.busWrite_failed {s : State} (h : s.reply = .failed) (frame : List Byte) (f g : State → State) :
    s.busWrite frame f g = g (s.takeReply.emit (.write frame .noAck)) := by
  simp [State.busWrite, h]

theorem State.busWrite_never {s : State} (h : s.reply = .never) (frame : List Byte) (f g : State → State) :
    s.busWrite frame f g = s.takeReply.hang (.call (.write frame)) := by
  simp [State.busWrite, h]

/-- Everything a BusWrite can do: go on after one acknowledged or unacknowledged write event, or wait forever. -/
theorem State.busWrite_cases (s : State) (frame : List Byte) (f g : State → State) :
    (s.reply = .ok ∧ s.busWrite frame f g = f (s.takeReply.emit (.write frame .ok))) ∨
    (s.reply = .failed ∧ s.busWrite frame f g = g (s.takeReply.emit (.write frame .noAck))) ∨
    (s.reply = .never ∧ s.busWrite frame f g = s.takeReply.hang (.call (.write frame))) := by
  cases h : s.reply <;> simp [State.busWrite, h]

theorem State.busRead_ok {s : State} (h : s.reply = .ok) (n : Nat) (f : Vector Byte n → State → State)
    (g : State → State) :
    s.busRead n f g = f (s.takeReply.received n)
      ((s.takeReply.takeBytes n).emit (.read n (.ok (s.takeReply.received n).toList))) := by
  simp [State.busRead, h]

theorem State.busRead_failed {s : State} (h : s.reply = .failed) (n : Nat) (f : Vector Byte n → State → State)
    (g : State → State) : s.busRead n f g = g (s.takeReply.emit (.read n .fail)) := by
  simp [State.busRead, h]

/-- Everything a BusRead can do: go on with exactly n bytes, go on after a failed read, or wait forever. -/
theorem State.busRead_cases (s : State) (n : Nat) (f : Vector Byte n → State → State) (g : State → State) :
    (s.reply = .ok ∧ s.busRead n f g = f (s.takeReply.received n)
      ((s.takeReply.takeBytes n).emit (.read n (.ok (s.takeReply.received n).toList)))) ∨
    (s.reply = .failed ∧ s.busRead n f g = g (s.takeReply.emit (.read n .fail))) ∨
    (s.reply = .never ∧ s.busRead n f g = s.takeReply.hang (.call (.read n))) := by
  cases h : s.reply <;> simp [State.busRead, h]

/-- The frames as bytes (R70 to R75). -/
theorem frame_bytes :
    buildArg wordStart argStart = [0x00, 0x10, 0x03, 0x00, 0xAC] ∧ buildCmd wordDrdy = [0x02, 0x02] ∧
    buildCmd wordRead = [0x03, 0x00] ∧ buildCmd wordStop = [0x01, 0x04] ∧
    buildCmd wordReset = [0xD3, 0x04] ∧ buildCmd wordFwver = [0xD1, 0x00] := by
  refine ⟨by decide +kernel, by decide, by decide, by decide, by decide, by decide⟩

end Sys2Proof.Machine
end

