-- ==== Sys2Proof/Laws/Exec.lean ====
section
/-!
SUPPORT. Everything an instruction can do, said once: `Ran s i new res busy mr session rail` lists each way an
instruction can run, with the events it adds, the result it delivers, the step it may be stuck in, and the registers it
leaves; a way that gets stuck says that not everything returns. `exec_ran` proves that there is no other way; whole-machine rules follow from it by cases on `Ran`.
-/
namespace Sys2Proof.Machine

open Sys2Proof.Safety

/-- t is s after an instruction that added these events and left these values; of the inputs it took answers and
ended waits from the front. -/
structure After (s t : State) (new : List Event) (res : Option Result) (busy : Option Pending) (mr : Record)
    (session : Session) (rail : Bool) : Prop where
  events : t.events = s.events ++ new
  result : t.result = res
  inProgress : t.inProgress = busy
  mr : t.mr = mr
  session : t.session = session
  railEn : t.railEn = rail
  requests : t.requests = s.requests
  answers : t.answers <:+ s.answers
  waits : t.waits <:+ s.waits

/-- The three ways a firmware-version query ends (R125). -/
inductive QueryEnded : List Event → Prop where
  | noAck : QueryEnded [.write [0xD1, 0x00] .noAck]
  | failed : QueryEnded [.write [0xD1, 0x00] .ok, .wait .fwver, .read 3 .fail]
  | read (b0 b1 b2 : Byte) :
    QueryEnded [.write [0xD1, 0x00] .ok, .wait .fwver, .read 3 (.ok [b0, b1, b2])]

/-- The result READ delivers for a decoded block (R128 step 10). -/
def readResult (next : Record) (mask : ErrMask) : Result :=
  if mask = 0 then .ok (.record next) else .error (.partialReadError mask next)

/-- Each way each instruction can run from s. -/
inductive Ran (s : State) : Instr → List Event → Option Result → Option Pending → Record → Session → Bool → Prop where
  | crc8 (bytes : List Byte) :
    Ran s (.crc8 bytes) [] (some (.ok (.byte (Machine.crc8 bytes)))) s.inProgress s.mr s.session s.railEn
  | bldcmd (cmd : Word) :
    Ran s (.bldcmd cmd) [] (some (.ok (.frame (buildCmd cmd)))) s.inProgress s.mr s.session s.railEn
  | bldarg (cmd arg : Word) :
    Ran s (.bldarg cmd arg) [] (some (.ok (.frame (buildArg cmd arg)))) s.inProgress s.mr s.session s.railEn
  | word (w0 w1 w2 : Byte) (h : Machine.crc8 [w0, w1] = w2) :
    Ran s (.prsword w0 w1 w2) [] (some (.ok (.word (be16 w0 w1)))) s.inProgress s.mr s.session s.railEn
  | badWord (w0 w1 w2 : Byte) (h : Machine.crc8 [w0, w1] ≠ w2) :
    Ran s (.prsword w0 w1 w2) [] (some (.error .checksumError)) s.inProgress s.mr s.session s.railEn
  | decblk (buf : Block) :
    Ran s (.decblk buf) [] (some (.ok (.decoded (decodeBlock s.mr buf).1 (decodeBlock s.mr buf).2))) s.inProgress
      (decodeBlock s.mr buf).1 s.session s.railEn
  | frame (i : Instr) (bytes : List Byte)
    (h : (∃ arg chk, i = .cmdStart arg chk ∧ bytes = buildArg wordStart arg) ∨
      (i = .cmdDrdy ∧ bytes = [0x02, 0x02]) ∨ (i = .cmdRead ∧ bytes = [0x03, 0x00]) ∨
      (i = .cmdStop ∧ bytes = [0x01, 0x04]) ∨ (i = .cmdReset ∧ bytes = [0xD3, 0x04]) ∨
      (i = .cmdFwver ∧ bytes = [0xD1, 0x00])) :
    Ran s i [] (some (.ok (.frame bytes))) s.inProgress s.mr s.session s.railEn
  | initOk (query : List Event) (h : QueryEnded query) :
    Ran s .init ([.railOn, .wait .settle] ++ query ++ [.write [0x00, 0x10, 0x03, 0x00, 0xAC] .ok])
      (some (.ok .done)) s.inProgress s.mr .measuring true
  | initFailed (query : List Event) (h : QueryEnded query) :
    Ran s .init ([.railOn, .wait .settle] ++ query ++ [.write [0x00, 0x10, 0x03, 0x00, 0xAC] .noAck])
      (some (.error .initFailure)) s.inProgress s.mr s.session true
  | initHangsSettle (hs : ¬ Returns s) :
    Ran s .init [.railOn] none (some (.wait .settle)) s.mr s.session true
  | initHangsQuery (hs : ¬ Returns s) :
    Ran s .init [.railOn, .wait .settle] none (some (.call (.write [0xD1, 0x00]))) s.mr s.session true
  | initHangsFwver (hs : ¬ Returns s) :
    Ran s .init [.railOn, .wait .settle, .write [0xD1, 0x00] .ok] none (some (.wait .fwver)) s.mr s.session true
  | initHangsVersion (hs : ¬ Returns s) :
    Ran s .init [.railOn, .wait .settle, .write [0xD1, 0x00] .ok, .wait .fwver] none (some (.call (.read 3)))
      s.mr s.session true
  | initHangsStart (query : List Event) (h : QueryEnded query) (hs : ¬ Returns s) :
    Ran s .init ([.railOn, .wait .settle] ++ query) none
      (some (.call (.write [0x00, 0x10, 0x03, 0x00, 0xAC]))) s.mr s.session true
  | drdyNoAck (i : Instr) (h : i = .poll ∨ i = .read) :
    Ran s i [.write [0x02, 0x02] .noAck] (some (.error .busAckError)) s.inProgress s.mr s.session s.railEn
  | drdyHangs (i : Instr) (h : i = .poll ∨ i = .read) (hs : ¬ Returns s) :
    Ran s i [] none (some (.call (.write [0x02, 0x02]))) s.mr s.session s.railEn
  | drdyFailed (i : Instr) (h : i = .poll ∨ i = .read) :
    Ran s i [.write [0x02, 0x02] .ok, .wait .poll, .read 2 .fail] (some (.error .busReadError)) s.inProgress
      s.mr s.session s.railEn
  | drdyHangsWaiting (i : Instr) (h : i = .poll ∨ i = .read) (hs : ¬ Returns s) :
    Ran s i [.write [0x02, 0x02] .ok] none (some (.wait .poll)) s.mr s.session s.railEn
  | drdyHangsReading (i : Instr) (h : i = .poll ∨ i = .read) (hs : ¬ Returns s) :
    Ran s i [.write [0x02, 0x02] .ok, .wait .poll] none (some (.call (.read 2))) s.mr s.session s.railEn
  | polled (b0 b1 : Byte) :
    Ran s .poll [.write [0x02, 0x02] .ok, .wait .poll, .read 2 (.ok [b0, b1])]
      (some (.ok (.ready (be16 b0 b1 == 0x0001)))) s.inProgress s.mr s.session s.railEn
  | notReady (b0 b1 : Byte) (h : be16 b0 b1 ≠ 0x0001) :
    Ran s .read [.write [0x02, 0x02] .ok, .wait .poll, .read 2 (.ok [b0, b1])]
      (some (.error .notReadyError)) s.inProgress s.mr s.session s.railEn
  | readNoAck :
    Ran s .read [.write [0x02, 0x02] .ok, .wait .poll, .read 2 (.ok [0x00, 0x01]), .write [0x03, 0x00] .noAck]
      (some (.error .busAckError)) s.inProgress s.mr s.session s.railEn
  | readHangs (hs : ¬ Returns s) :
    Ran s .read [.write [0x02, 0x02] .ok, .wait .poll, .read 2 (.ok [0x00, 0x01])] none
      (some (.call (.write [0x03, 0x00]))) s.mr s.session s.railEn
  | readFailed :
    Ran s .read [.write [0x02, 0x02] .ok, .wait .poll, .read 2 (.ok [0x00, 0x01]), .write [0x03, 0x00] .ok,
      .wait .read, .read 60 .fail] (some (.error .busReadError)) s.inProgress s.mr s.session s.railEn
  | readHangsWaiting (hs : ¬ Returns s) :
    Ran s .read [.write [0x02, 0x02] .ok, .wait .poll, .read 2 (.ok [0x00, 0x01]), .write [0x03, 0x00] .ok] none
      (some (.wait .read)) s.mr s.session s.railEn
  | readHangsReading (hs : ¬ Returns s) :
    Ran s .read [.write [0x02, 0x02] .ok, .wait .poll, .read 2 (.ok [0x00, 0x01]), .write [0x03, 0x00] .ok,
      .wait .read] none (some (.call (.read 60))) s.mr s.session s.railEn
  | decoded (q : Block) :
    Ran s .read [.write [0x02, 0x02] .ok, .wait .poll, .read 2 (.ok [0x00, 0x01]), .write [0x03, 0x00] .ok,
      .wait .read, .read 60 (.ok q.toList)]
      (some (readResult (decodeBlock s.mr q).1 (decodeBlock s.mr q).2)) s.inProgress
      (decodeBlock s.mr q).1 s.session s.railEn
  | deinitOk :
    Ran s .deinit [.write [0x01, 0x04] .ok, .wait .stop, .railOff] (some (.ok .done)) s.inProgress s.mr
      .stopped false
  | deinitNoAck :
    Ran s .deinit [.write [0x01, 0x04] .noAck, .wait .stop, .railOff] (some (.error .busAckError)) s.inProgress
      s.mr .stopped false
  | deinitHangsWaiting (a : WriteAnswer) (hs : ¬ Returns s) :
    Ran s .deinit [.write [0x01, 0x04] a] none (some (.wait .stop)) s.mr s.session s.railEn
  | deinitHangs (hs : ¬ Returns s) : Ran s .deinit [] none (some (.call (.write [0x01, 0x04]))) s.mr s.session s.railEn

/-- A vector of two bytes, listed. -/
theorem toList_two (q : Vector Byte 2) : q.toList = [q[0], q[1]] :=
  congrArg Vector.toList (Vector.ext fun
    | 0, _ => rfl
    | 1, _ => rfl : q = #v[q[0], q[1]])

/-- A vector of three bytes, listed. -/
theorem toList_three (q : Vector Byte 3) : q.toList = [q[0], q[1], q[2]] :=
  congrArg Vector.toList (Vector.ext fun
    | 0, _ => rfl
    | 1, _ => rfl
    | 2, _ => rfl : q = #v[q[0], q[1], q[2]])

/-- A word that reads 1 has arrived as 00 01. -/
theorem bytes_of_one {b0 b1 : Byte} (h : be16 b0 b1 = 0x0001) : b0 = 0x00 ∧ b1 = 0x01 := by
  have hn := congrArg BitVec.toNat h
  have : (be16 b0 b1).toNat = b0.toNat * 256 + b1.toNat := by
    unfold be16
    rw [BitVec.toNat_append, ← Nat.shiftLeft_add_eq_or_of_lt b1.isLt, Nat.shiftLeft_eq]
  have h1 := b1.isLt
  constructor <;> apply BitVec.eq_of_toNat_eq <;> simp at * <;> omega

/-- Everything goes on returning. -/
theorem After.returns {s t : State} {new : List Event} {res : Option Result} {busy : Option Pending} {mr : Record}
    {session : Session} {rail : Bool} (h : After s t new res busy mr session rail) (hr : Returns s) : Returns t :=
  returns_of_suffix hr h.answers h.waits

/-- t is where a run of i from s ends. -/
def Ends (s : State) (i : Instr) (t : State) : Prop :=
  ∃ new res busy mr session rail, After s t new res busy mr session rail ∧ Ran s i new res busy mr session rail

/-- t is in the middle of an operation that began in s: these events so far, no result, no register written but RAIL_EN. -/
abbrev Mid (s t : State) (new : List Event) (rail : Bool) : Prop :=
  After s t new none s.inProgress s.mr s.session rail

/-- Two parts of a run, one after the other. -/
theorem After.trans {s t u : State} {new new' : List Event} {res res' : Option Result}
    {busy busy' : Option Pending} {mr mr' : Record} {session session' : Session} {rail rail' : Bool}
    (h : After s t new res busy mr session rail) (h' : After t u new' res' busy' mr' session' rail') :
    After s u (new ++ new') res' busy' mr' session' rail' where
  events := by rw [h'.events, h.events, List.append_assoc]
  result := h'.result
  inProgress := h'.inProgress
  mr := h'.mr
  session := h'.session
  railEn := h'.railEn
  requests := h'.requests.trans h.requests
  answers := h'.answers.trans h.answers
  waits := h'.waits.trans h.waits

variable {s t : State} {i : Instr} {new : List Event} {rail : Bool}

/-- An operation that has begun. -/
theorem mid_start (s : State) : Mid s s.start [] s.railEn := by constructor <;> simp

/-- One more part of an operation, which adds events, takes inputs, and touches no register. -/
theorem Mid.trans {u : State} {new' : List Event} (h : Mid s t new rail)
    (h' : After t u new' t.result t.inProgress t.mr t.session t.railEn) : Mid s u (new ++ new') rail := by
  have := After.trans h h'
  rwa [h.result, h.inProgress, h.mr, h.session, h.railEn] at this

/-- The operation is stuck in p. -/
theorem Mid.stuck {u : State} {p : Pending} (h : Mid s t new rail)
    (h' : After t u [] t.result (some p) t.mr t.session t.railEn)
    (hr : Ran s i new none (some p) s.mr s.session rail) : Ends s i u := by
  have := After.trans h h'
  rw [h.result, h.mr, h.session, h.railEn, List.append_nil] at this
  exact ⟨_, _, _, _, _, _, this, hr⟩

/-- The operation delivers v. -/
theorem Mid.deliver {v : Value} (h : Mid s t new rail)
    (hr : Ran s i new (some (.ok v)) s.inProgress s.mr s.session rail) : Ends s i (t.deliver v) :=
  ⟨_, _, _, _, _, _, { h with result := rfl }, hr⟩

/-- The operation raises e. -/
theorem Mid.raise {e : ErrorKind} (h : Mid s t new rail)
    (hr : Ran s i new (some (.error e)) s.inProgress s.mr s.session rail) : Ends s i (t.raise e) :=
  ⟨_, _, _, _, _, _, { h with result := rfl }, hr⟩

/-- It goes on after a Wait, or is stuck in it. -/
theorem Mid.wait {w : WaitName} {k : State → State} (h : Mid s t new rail)
    (stuck : ¬ Returns s → Ran s i new none (some (.wait w)) s.mr s.session rail)
    (go : ∀ u, Mid s u (new ++ [.wait w]) rail → Ends s i (k u)) : Ends s i (t.wait w k) := by
  obtain ⟨-, hk⟩ | ⟨hn, hk⟩ := State.wait_cases t w k <;> rw [hk]
  · exact go _ (h.trans (by constructor <;> simp [List.tail_suffix]))
  · exact h.stuck (by constructor <;> simp [List.tail_suffix]) (stuck fun hr => waitsReturn_head (h.returns hr).2 hn)

/-- It goes on after a BusWrite, by the answer, or is stuck in it. -/
theorem Mid.write {frame : List Byte} {f g : State → State} (h : Mid s t new rail)
    (stuck : ¬ Returns s → Ran s i new none (some (.call (.write frame))) s.mr s.session rail)
    (ok : ∀ u, Mid s u (new ++ [.write frame .ok]) rail → Ends s i (f u))
    (noAck : ∀ u, Mid s u (new ++ [.write frame .noAck]) rail → Ends s i (g u)) :
    Ends s i (t.busWrite frame f g) := by
  obtain ⟨-, hk⟩ | ⟨-, hk⟩ | ⟨hn, hk⟩ := State.busWrite_cases t frame f g <;> rw [hk]
  · exact ok _ (h.trans (by constructor <;> simp [List.tail_suffix]))
  · exact noAck _ (h.trans (by constructor <;> simp [List.tail_suffix]))
  · exact h.stuck (by constructor <;> simp [List.tail_suffix]) (stuck fun hr => reply_ne_never (h.returns hr).1 hn)

/-- It goes on after a BusRead with exactly n bytes, or after a failed one, or is stuck in it. -/
theorem Mid.read {n : Nat} {f : Vector Byte n → State → State} {g : State → State} (h : Mid s t new rail)
    (stuck : ¬ Returns s → Ran s i new none (some (.call (.read n))) s.mr s.session rail)
    (ok : ∀ q u, Mid s u (new ++ [.read n (.ok q.toList)]) rail → Ends s i (f q u))
    (fail : ∀ u, Mid s u (new ++ [.read n .fail]) rail → Ends s i (g u)) :
    Ends s i (t.busRead n f g) := by
  obtain ⟨-, hk⟩ | ⟨-, hk⟩ | ⟨hn, hk⟩ := State.busRead_cases t n f g <;> rw [hk]
  · exact ok _ _ (h.trans (by constructor <;> simp [List.tail_suffix]))
  · exact fail _ (h.trans (by constructor <;> simp [List.tail_suffix]))
  · exact h.stuck (by constructor <;> simp [List.tail_suffix]) (stuck fun hr => reply_ne_never (h.returns hr).1 hn)

/-- FWVER_QUERY (R125): the operation goes on in each of its three ends. -/
theorem Mid.fwverQuery {k : State → State} (h : Mid s t [.railOn, .wait .settle] true)
    (go : ∀ query u, QueryEnded query → Mid s u ([.railOn, .wait .settle] ++ query) true → Ends s .init (k u)) :
    Ends s .init (fwverQuery t k) := by
  unfold Machine.fwverQuery
  rw [frame_bytes.2.2.2.2.2]
  refine h.write .initHangsQuery (fun u h => ?_) (fun u h => go _ u .noAck h)
  refine h.wait .initHangsFwver fun u h => ?_
  refine h.read .initHangsVersion (fun q u h => ?_) (fun u h => go _ u .failed h)
  rw [toList_three] at h
  exact go _ u (.read q[0] q[1] q[2]) h

/-- DRDY_QUERY (R127): the operation ends in the query, or goes on with the value. -/
theorem Mid.drdyQuery {k : Word → State → State} (hi : i = .poll ∨ i = .read) (h : Mid s t [] s.railEn)
    (go : ∀ b0 b1 u, Mid s u [.write [0x02, 0x02] .ok, .wait .poll, .read 2 (.ok [b0, b1])] s.railEn →
      Ends s i (k (be16 b0 b1) u)) : Ends s i (drdyQuery t k) := by
  unfold Machine.drdyQuery
  rw [frame_bytes.2.1]
  refine h.write (.drdyHangs i hi) (fun u h => ?_) (fun u h => h.raise (.drdyNoAck i hi))
  refine h.wait (.drdyHangsWaiting i hi) fun u h => ?_
  refine h.read (.drdyHangsReading i hi) (fun q u h => ?_) (fun u h => h.raise (.drdyFailed i hi))
  rw [toList_two] at h
  exact go q[0] q[1] u h

/-- Steps 3 to 10 of READ (R128). -/
theorem Mid.readMeasurement
    (h : Mid s t [.write [0x02, 0x02] .ok, .wait .poll, .read 2 (.ok [0x00, 0x01])] s.railEn) :
    Ends s .read (readMeasurement t) := by
  unfold Machine.readMeasurement
  rw [frame_bytes.2.2.1]
  refine h.write .readHangs (fun u h => ?_) (fun u h => h.raise .readNoAck)
  refine h.wait .readHangsWaiting fun u h => ?_
  refine h.read .readHangsReading (fun q u h => ?_) (fun u h => h.raise .readFailed)
  have hr := Ran.decoded (s := s) q
  simp only [finishRead, h.mr]
  by_cases hm : (decodeBlock s.mr q).2 = 0
  · rw [readResult, if_pos hm] at hr
    rw [if_pos hm]
    exact ⟨_, _, _, _, _, _, { h with result := rfl, mr := rfl }, hr⟩
  · rw [readResult, if_neg hm] at hr
    rw [if_neg hm]
    exact ⟨_, _, _, _, _, _, { h with result := rfl, mr := rfl }, hr⟩

/-- DEINIT after the stop command was answered (R130 steps 2 to 5). -/
theorem Mid.shutDown {a : WriteAnswer} {report : State → State} (h : Mid s t [.write [0x01, 0x04] a] s.railEn)
    (go : ∀ u, After s u [.write [0x01, 0x04] a, .wait .stop, .railOff] none s.inProgress s.mr .stopped false →
      Ends s .deinit (report u)) : Ends s .deinit (shutDown t report) := by
  refine h.wait (.deinitHangsWaiting a) fun u h => go _ ?_
  constructor <;> simp [h.events, h.result, h.mr, h.inProgress, h.requests, h.answers, h.waits]

/-- Where an instruction of the command map ends. -/
theorem ends_frame {bytes : List Byte} (h : (∃ arg chk, i = .cmdStart arg chk ∧ bytes = buildArg wordStart arg) ∨
      (i = .cmdDrdy ∧ bytes = [0x02, 0x02]) ∨ (i = .cmdRead ∧ bytes = [0x03, 0x00]) ∨
      (i = .cmdStop ∧ bytes = [0x01, 0x04]) ∨ (i = .cmdReset ∧ bytes = [0xD3, 0x04]) ∨
      (i = .cmdFwver ∧ bytes = [0xD1, 0x00])) : Ends s i (s.start.deliver (.frame bytes)) :=
  (mid_start s).deliver (.frame i bytes h)

/-- Every instruction answers a next state, in one of the ways listed. -/
theorem exec_ends (i : Instr) (s : State) : ∃ t, exec i s = .next t ∧ Ends s i t := by
  have h0 := mid_start s
  cases i with
  | crc8 bytes => exact ⟨_, rfl, h0.deliver (.crc8 bytes)⟩
  | bldcmd cmd => exact ⟨_, rfl, h0.deliver (.bldcmd cmd)⟩
  | bldarg cmd arg => exact ⟨_, rfl, h0.deliver (.bldarg cmd arg)⟩
  | prsword w0 w1 w2 =>
    refine ⟨_, rfl, ?_⟩
    unfold parseWord
    by_cases h : Machine.crc8 [w0, w1] = w2
    · rw [if_pos h]; exact h0.deliver (.word w0 w1 w2 h)
    · rw [if_neg h]; exact h0.raise (.badWord w0 w1 w2 h)
  | decblk buf => exact ⟨_, rfl, _, _, _, _, _, _, by constructor <;> simp, .decblk buf⟩
  | init =>
    have h1 : Mid s (s.start.setRail true) [.railOn] true := by constructor <;> simp
    refine ⟨_, rfl, h1.wait .initHangsSettle fun u h => h.fwverQuery fun query u hq h => ?_⟩
    unfold startMeasurement
    rw [frame_bytes.1]
    refine h.write (.initHangsStart query hq) (fun u h => ?_) (fun u h => h.raise (.initFailed query hq))
    exact ⟨_, _, _, _, _, _, { h with result := rfl, session := rfl }, .initOk query hq⟩
  | poll =>
    refine ⟨_, rfl, h0.drdyQuery (.inl rfl) fun b0 b1 u h => h.deliver (.polled b0 b1)⟩
  | read =>
    refine ⟨_, rfl, h0.drdyQuery (.inr rfl) fun b0 b1 u h => ?_⟩
    by_cases hr : be16 b0 b1 = 0x0001
    · obtain ⟨rfl, rfl⟩ := bytes_of_one hr
      exact h.readMeasurement
    · rw [if_neg (by simpa [isReady, drdyTrue] using hr)]
      exact h.raise (.notReady b0 b1 hr)
  | deinit =>
    refine ⟨_, rfl, ?_⟩
    rw [frame_bytes.2.2.2.1]
    exact h0.write .deinitHangs
      (fun u h => h.shutDown fun u h => ⟨_, _, _, _, _, _, { h with result := rfl }, .deinitOk⟩)
      (fun u h => h.shutDown fun u h => ⟨_, _, _, _, _, _, { h with result := rfl }, .deinitNoAck⟩)
  | cmdStart arg chk => exact ⟨_, rfl, ends_frame (.inl ⟨arg, chk, rfl, rfl⟩)⟩
  | cmdDrdy => exact ⟨_, rfl, ends_frame (by simp [frame_bytes])⟩
  | cmdRead => exact ⟨_, rfl, ends_frame (by simp [frame_bytes])⟩
  | cmdStop => exact ⟨_, rfl, ends_frame (by simp [frame_bytes])⟩
  | cmdReset => exact ⟨_, rfl, ends_frame (by simp [frame_bytes])⟩
  | cmdFwver => exact ⟨_, rfl, ends_frame (by simp [frame_bytes])⟩

/-- The same, unfolded. -/
theorem exec_ran (i : Instr) (s : State) :
    ∃ t new res busy mr session rail, exec i s = .next t ∧ After s t new res busy mr session rail ∧
      Ran s i new res busy mr session rail := by
  obtain ⟨t, he, new, res, busy, mr, session, rail, ha, hr⟩ := exec_ends i s
  exact ⟨t, new, res, busy, mr, session, rail, he, ha, hr⟩

/-- The same for a given next state: what provers cite. -/
theorem ran_of_exec {i : Instr} {s t : State} (h : exec i s = .next t) :
    ∃ new res busy mr session rail, After s t new res busy mr session rail ∧
      Ran s i new res busy mr session rail := by
  obtain ⟨t', he, ht⟩ := exec_ends i s
  rw [h] at he
  cases he
  exact ht

/-- Where every call and every wait returns, an instruction delivers a result and is stuck in nothing (R175). -/
theorem ran_returns {res : Option Result} {busy : Option Pending} {mr : Record} {session : Session}
    (h : Ran s i new res busy mr session rail) (hr : Returns s) : res ≠ none ∧ busy = s.inProgress := by
  cases h <;> first | exact absurd hr ‹_› | exact ⟨nofun, rfl⟩

end Sys2Proof.Machine
end

