-- ==== Sys2Proof/Laws/PerInstr.lean ====
section
/-!
SUPPORT. What the selection of an operation looks like (`spec/30_encoding.md` R80), one lemma per constructor: OPSEL bit 3
is set exactly for the session operations, and every operation but CRC8 has a fixed number of operand bytes.
-/
namespace Sys2Proof.Laws.Selection

/-- R80: "OPSEL bit 3 separates the pure operations (0) from the session operations (1)", and the operand lengths. -/
def Statement (i : Instr) : Prop :=
  ∀ opsel operands, encode i = .operation opsel operands →
    (opsel.getLsbD 3 = true ↔ i = .init ∨ i = .poll ∨ i = .read ∨ i = .deinit) ∧
    (opsel = 0 ∨ operands.length = operandCount opsel)

theorem crc8 (bytes : List Byte) : Statement (.crc8 bytes) := by
  rintro _ _ ⟨⟩; simp

theorem bldcmd (cmd : Word) : Statement (.bldcmd cmd) := by
  rintro _ _ ⟨⟩; simp [operandCount, Machine.bytes16]

theorem bldarg (cmd arg : Word) : Statement (.bldarg cmd arg) := by
  rintro _ _ ⟨⟩; simp [operandCount, Machine.bytes16]

theorem prsword (w0 w1 w2 : Byte) : Statement (.prsword w0 w1 w2) := by
  rintro _ _ ⟨⟩; simp [operandCount]

theorem decblk (buf : Block) : Statement (.decblk buf) := by
  rintro _ _ ⟨⟩; simp [operandCount]

theorem init : Statement .init := by
  rintro _ _ ⟨⟩; simp [operandCount]

theorem poll : Statement .poll := by
  rintro _ _ ⟨⟩; simp [operandCount]

theorem read : Statement .read := by
  rintro _ _ ⟨⟩; simp [operandCount]

theorem deinit : Statement .deinit := by
  rintro _ _ ⟨⟩; simp [operandCount]

theorem cmdStart (arg : Word) (chk : Byte) : Statement (.cmdStart arg chk) := nofun

theorem cmdDrdy : Statement .cmdDrdy := nofun

theorem cmdRead : Statement .cmdRead := nofun

theorem cmdStop : Statement .cmdStop := nofun

theorem cmdReset : Statement .cmdReset := nofun

theorem cmdFwver : Statement .cmdFwver := nofun

end Sys2Proof.Laws.Selection
end

