-- ==== Sys2Proof/Laws/Step.lean ====
section
/-!
SUPPORT. Everything a step can do.
-/
namespace Sys2Proof.Machine

/-- A step that answers a next state either had nothing presented and changed nothing, or ran the decoded instruction of
the next request in an idle block. -/
theorem step_cases {s t : State} (h : step s = .next t) :
    (s.requests = [] ∧ t = s) ∨
    ∃ i r rest, s.requests = r :: rest ∧ s.inProgress = none ∧ decode r = .ok i ∧
      exec i { s with requests := rest } = .next t := by
  unfold step at h
  split at h
  · rename_i hr
    cases h
    exact .inl ⟨hr, rfl⟩
  · rename_i r rest hr
    split at h
    · cases h
    · rename_i hi
      split at h
      · rename_i i hd
        exact .inr ⟨i, r, rest, hr, hi, hd, h⟩
      · cases h

end Sys2Proof.Machine
end

