-- ==== Sys2Proof/Machine/Binary32.lean ====
section
/-!
DEFINITION. A field pattern read as an IEEE-754 binary32 number (`spec/42_measurement_decoder.md` R115). PRESUMED: the spec
itself supplies this layout from general knowledge; no operation depends on it (R114). Log entry 10.
-/
namespace Sys2Proof.Machine

/-- What a pattern stands for (R115). -/
inductive NumberKind where
  | zero | subnormal | normal | infinity | nan
  deriving DecidableEq, Repr

/-- Bit 31, the sign. -/
def signBit (p : Pattern) : Bool := p.getLsbD 31

/-- Bits 30 to 23, the biased exponent. -/
def exponentField (p : Pattern) : BitVec 8 := p.extractLsb' 23 8

/-- Bits 22 to 0, the fraction. -/
def fractionField (p : Pattern) : BitVec 23 := p.extractLsb' 0 23

/-- The kind of a pattern by its exponent and fraction (R115). -/
def numberKind (p : Pattern) : NumberKind :=
  if exponentField p = 0 then (if fractionField p = 0 then .zero else .subnormal)
  else if exponentField p = 255 then (if fractionField p = 0 then .infinity else .nan)
  else .normal

/-- The value of a zero or normal pattern, (-1)^sign * 2^(exponent-127) * (1 + fraction/2^23) for a normal one; R115 gives
no number for the other kinds. -/
def numberValue (p : Pattern) : Option ℚ :=
  match numberKind p with
  | .zero => some 0
  | .normal =>
    some ((if signBit p then -1 else 1) * 2 ^ (exponentField p).toNat / 2 ^ 127 *
      (1 + (fractionField p).toNat / 2 ^ 23))
  | .subnormal => none
  | .infinity => none
  | .nan => none

end Sys2Proof.Machine
end

