-- ==== Sys2Proof/WellFormed.lean ====
section
/-!
DEFINITION. Which instructions are well formed. Operand lengths are in the types (a ResponseWord has three
bytes, a block has sixty), so the one check left is the checksum of an F-CA frame (R61).
-/
namespace Sys2Proof

/-- The check of one instruction: in a CMD_START frame the fifth byte is CRC8 of the argument bytes (R61);
every other constructor admits every operand (R76, R78, R91, R116). -/
def wellFormed : Instr → Bool
  | .cmdStart arg chk => chk == Machine.crc8 (Machine.bytes16 arg)
  | .crc8 _ => true
  | .bldcmd _ => true
  | .bldarg _ _ => true
  | .prsword _ _ _ => true
  | .decblk _ => true
  | .init => true
  | .poll => true
  | .read => true
  | .deinit => true
  | .cmdDrdy => true
  | .cmdRead => true
  | .cmdStop => true
  | .cmdReset => true
  | .cmdFwver => true

/-- The same as a decidable proposition. -/
abbrev WellFormed (i : Instr) : Prop := wellFormed i = true

end Sys2Proof
end

