-- ==== Sys2Proof/Tests/Slice0.lean ====
section
/-!
SUPPORT. Tests of one step each, with the expected values of `spec/95_test_vectors.md` (their numbers in the comments) or
written out from the encoding tables; a smoke test of WellFormed; and a witness for every statement with hypotheses.
-/
namespace Sys2Proof.Tests

open Sys2Proof.Machine Sys2Proof.Safety

/-! States to test on. -/

/-- An idle block in this session with these answers and received bytes to come; every field 0x11111111. -/
def block (session : Session) (railEn : Bool) (answers : List Reply) (rx : List Byte) : State where
  mr := Vector.replicate 10 0x11111111
  session := session
  railEn := railEn
  requests := []
  answers := answers
  rx := rx
  waits := []
  draws := 0
  inProgress := none
  result := none
  events := []

/-- The session's result of an outcome. -/
def resultOf : Host.Outcome State Fault Refusal → Option Result
  | .next t => t.result
  | .fault r => nomatch r
  | .refused _ => none

/-- The events of an outcome. -/
def eventsOf : Host.Outcome State Fault Refusal → List Event
  | .next t => t.events
  | .fault r => nomatch r
  | .refused _ => []

/-- SESSION, RAIL_EN and MR of an outcome. -/
def registersOf : Host.Outcome State Fault Refusal → Option (Session × Bool × Record)
  | .next t => some (t.session, t.railEn, t.mr)
  | .fault r => nomatch r
  | .refused _ => none

/-- The refusal of an outcome. -/
def refusalOf : Host.Outcome State Fault Refusal → Option Refusal
  | .next _ => none
  | .fault r => nomatch r
  | .refused r => some r

/-- The fields of every `block`. -/
abbrev ones : Record := Vector.replicate 10 0x11111111

/-- V32: ten groups `00 00 81 00 00 81`. -/
def zeroBlock : Block := Vector.ofFn fun k => if k.val % 3 = 2 then 0x81 else 0x00

/-- V34: V32 with byte 11 changed to 80. -/
def spoiledBlock : Block := zeroBlock.set 11 0x80

/-- V35: special patterns. -/
def specialBlock : Block :=
  #v[0x7F, 0xC0, 0x64, 0x00, 0x00, 0x81, 0xFF, 0x80, 0x7A, 0x00, 0x00, 0x81,
    0x7F, 0x80, 0x59, 0x00, 0x01, 0xB0, 0x80, 0x00, 0xA2, 0x00, 0x00, 0x81,
    0x00, 0x00, 0x81, 0x00, 0x01, 0xB0, 0x7F, 0x7F, 0xF5, 0xFF, 0xFF, 0xAC,
    0xFF, 0xFF, 0xAC, 0xFF, 0xFF, 0xAC, 0x12, 0x34, 0x37, 0x56, 0x78, 0x7D,
    0xDE, 0xAD, 0x98, 0xBE, 0xEF, 0x92, 0x3F, 0x80, 0xD0, 0x00, 0x00, 0x81]

/-! Well-formedness. -/

theorem test_wellFormed_start : WellFormed (.cmdStart 0x0300 0xAC) := by decide +kernel

/-- R61: a wrong checksum byte is refused. -/
theorem test_illFormed_start : ¬ WellFormed (.cmdStart 0x0300 0xAD) := by decide +kernel

/-! Decoding, the codes and words written out from R80 and R70 to R75. -/

theorem test_decode_crc8 : decode (.operation 0b0000 [0x03, 0x00]) = .ok (.crc8 [0x03, 0x00]) := by rfl
theorem test_decode_bldcmd : decode (.operation 0b0001 [0x02, 0x01]) = .ok (.bldcmd 0x0201) := by rfl
theorem test_decode_bldarg :
    decode (.operation 0b0010 [0x00, 0x10, 0x03, 0x01]) = .ok (.bldarg 0x0010 0x0301) := by rfl
theorem test_decode_prsword : decode (.operation 0b0011 [0xBE, 0xEF, 0x92]) = .ok (.prsword 0xBE 0xEF 0x92) := by rfl
theorem test_decode_decblk : decode (.operation 0b0100 specialBlock.toList) = .ok (.decblk specialBlock) := by rfl
theorem test_decode_init : decode (.operation 0b1000 []) = .ok .init := by rfl
theorem test_decode_poll : decode (.operation 0b1001 []) = .ok .poll := by rfl
theorem test_decode_read : decode (.operation 0b1010 []) = .ok .read := by rfl
theorem test_decode_deinit : decode (.operation 0b1011 []) = .ok .deinit := by rfl
theorem test_decode_cmdStart :
    decode (.frame [0b00000000, 0b00010000, 0x03, 0x00, 0xAC]) = .ok (.cmdStart 0x0300 0xAC) := by rfl
theorem test_decode_cmdDrdy : decode (.frame [0b00000010, 0b00000010]) = .ok .cmdDrdy := by rfl
theorem test_decode_cmdRead : decode (.frame [0b00000011, 0b00000000]) = .ok .cmdRead := by rfl
theorem test_decode_cmdStop : decode (.frame [0b00000001, 0b00000100]) = .ok .cmdStop := by rfl
theorem test_decode_cmdReset : decode (.frame [0b11010011, 0b00000100]) = .ok .cmdReset := by rfl
theorem test_decode_cmdFwver : decode (.frame [0b11010001, 0b00000000]) = .ok .cmdFwver := by rfl

/-- R62: CMD_START without its argument is no frame. -/
theorem test_decode_short_start : decode (.frame [0x00, 0x10]) = .error (.notACommandFrame [0x00, 0x10]) := by rfl

/-- R116: a buffer of fifty-nine bytes is not an operand of DECBLK. -/
theorem test_decode_short_block : decode (.operation 0x4 (List.replicate 59 0)) = .error (.notAnOperand 0x4) := by rfl

/-- R30, R112: ERRMASK 0x202 lists fields 1 and 9 (V37). -/
theorem test_decodeErrors : decodeErrors 0x202 = [.decodeError 1, .decodeError 9] := by decide

/-- R115 and V35: 0x3F800000 is the number 1, 0x7F800001 is a NaN. -/
theorem test_binary32 : numberValue 0x3F800000 = some 1 ∧ numberKind 0x7F800001 = .nan := by
  constructor
  · have h : numberKind 0x3F800000 = .normal := by decide
    have he : (exponentField 0x3F800000).toNat = 127 := by decide
    have hf : (fractionField 0x3F800000).toNat = 0 := by decide
    have hs : signBit 0x3F800000 = false := by decide
    unfold numberValue
    rw [h, he, hf, hs]
    norm_num
  · decide

/-! U1: V1, V10, V12. -/

theorem test_crc8_vectors : crc8 [] = 0xFF ∧ crc8 [0xBE, 0xEF] = 0x92 ∧
    crc8 [0x31, 0x32, 0x33, 0x34, 0x35, 0x36, 0x37, 0x38, 0x39] = 0xF7 := by decide +kernel

/-- V8: the order of the bytes matters. -/
theorem test_crc8_step : resultOf (exec (.crc8 [0x01, 0x00]) (block .stopped true [] [])) =
    some (.ok (.byte 0x75)) := by decide +kernel

/-! U2: V21c; V25b, V23; V26, V31b. -/

theorem test_bldcmd : resultOf (exec (.bldcmd 0x00FF) (block .stopped true [] [])) =
    some (.ok (.frame [0x00, 0xFF])) := by decide

theorem test_bldarg : resultOf (exec (.bldarg 0x0010 0x0003) (block .stopped true [] [])) =
    some (.ok (.frame [0x00, 0x10, 0x00, 0x03, 0xD2])) := by decide +kernel

theorem test_bldarg_zero : resultOf (exec (.bldarg 0x1234 0x0000) (block .stopped true [] [])) =
    some (.ok (.frame [0x12, 0x34, 0x00, 0x00, 0x81])) := by decide +kernel

theorem test_prsword : resultOf (exec (.prsword 0xBE 0xEF 0x92) (block .stopped true [] [])) =
    some (.ok (.word 0xBEEF)) := by decide +kernel

theorem test_prsword_swapped : resultOf (exec (.prsword 0xEF 0xBE 0x92) (block .stopped true [] [])) =
    some (.error .checksumError) := by decide +kernel

/-! U3: V34, V35, V33. -/

theorem test_decblk_spoiled : resultOf (exec (.decblk spoiledBlock) (block .uninitialized false [] [])) =
    some (.ok (.decoded #v[0, 0x11111111, 0, 0, 0, 0, 0, 0, 0, 0] 0x002)) := by decide +kernel

theorem test_decblk_special : registersOf (exec (.decblk specialBlock) (block .uninitialized false [] [])) =
    some (.uninitialized, false, #v[0x7FC00000, 0xFF800000, 0x7F800001, 0x80000000, 0x00000001, 0x7F7FFFFF,
      0xFFFFFFFF, 0x12345678, 0xDEADBEEF, 0x3F800000]) := by decide +kernel

theorem test_all_zero_bytes : decodeBlock ones (Vector.replicate 60 0) = (ones, 0x3FF) := by decide +kernel

/-! U4: V40, V43a; V44, V47; V50, V55 in shape; V57, V58. -/

theorem test_init : eventsOf (exec .init (block .uninitialized false [.ok, .ok, .ok] [1, 2, 23])) =
    [.railOn, .wait .settle, .write [0xD1, 0x00] .ok, .wait .fwver, .read 3 (.ok [1, 2, 23]),
      .write [0x00, 0x10, 0x03, 0x00, 0xAC] .ok] := by decide +kernel

theorem test_init_failure : registersOf (exec .init (block .stopped false [.failed, .failed] [])) =
    some (.stopped, true, ones) := by decide +kernel

theorem test_poll_ready : resultOf (exec .poll (block .measuring true [.ok, .ok] [0x00, 0x01])) =
    some (.ok (.ready true)) := by decide

theorem test_poll_wrong_order : resultOf (exec .poll (block .measuring true [.ok, .ok] [0x01, 0x00])) =
    some (.ok (.ready false)) := by decide

theorem test_read_not_ready : eventsOf (exec .read (block .measuring true [.ok, .ok] [0x00, 0x00])) =
    [.write [0x02, 0x02] .ok, .wait .poll, .read 2 (.ok [0x00, 0x00])] := by decide

theorem test_read_partial :
    resultOf (exec .read (block .measuring true [.ok, .ok, .ok, .ok] ([0x00, 0x01] ++ spoiledBlock.toList))) =
      some (.error (.partialReadError 0x002 #v[0, 0x11111111, 0, 0, 0, 0, 0, 0, 0, 0])) := by decide +kernel

theorem test_deinit_noAck : registersOf (exec .deinit (block .measuring true [.failed] [])) =
    some (.stopped, false, ones) := by decide

theorem test_deinit_noAck_events : eventsOf (exec .deinit (block .measuring true [.failed] [])) =
    [.write [0x01, 0x04] .noAck, .wait .stop, .railOff] := by decide

/-- R175, U10: DEINIT stuck in its wait has not switched the rail off. -/
theorem test_deinit_endless_wait :
    registersOf (exec .deinit { block .measuring true [.ok] [] with waits := [.never] }) =
      some (.measuring, true, ones) := by decide

/-! The command map, S10. -/

theorem test_cmdStart : resultOf (exec (.cmdStart 0x0300 0xAC) (block .stopped true [] [])) =
    some (.ok (.frame [0x00, 0x10, 0x03, 0x00, 0xAC])) := by decide +kernel
theorem test_cmdDrdy : resultOf (exec .cmdDrdy (block .stopped true [] [])) =
    some (.ok (.frame [0x02, 0x02])) := by decide
theorem test_cmdRead : resultOf (exec .cmdRead (block .stopped true [] [])) =
    some (.ok (.frame [0x03, 0x00])) := by decide
theorem test_cmdStop : resultOf (exec .cmdStop (block .stopped true [] [])) =
    some (.ok (.frame [0x01, 0x04])) := by decide
theorem test_cmdReset : resultOf (exec .cmdReset (block .stopped true [] [])) =
    some (.ok (.frame [0xD3, 0x04])) := by decide
theorem test_cmdFwver : resultOf (exec .cmdFwver (block .stopped true [] [])) =
    some (.ok (.frame [0xD1, 0x00])) := by decide

/-! The host port. -/

/-- Each table word runs as the first instruction after reset: OPSEL 0x3 on zeros is V29. -/
theorem test_fetch_prsword : resultOf (step (State.reset.withFetchWord 8 0x3)) =
    some (.error .checksumError) := by decide +kernel
theorem test_fetch_cmdRead : resultOf (step (State.reset.withFetchWord 16 0x0300)) =
    some (.ok (.frame [0x03, 0x00])) := by decide
theorem test_step_reserved : refusalOf (step { block .measuring true [] [] with requests := [.operation 0x5 []] }) =
    some (.undecodable (.reservedOpsel 0x5)) := by decide

/-! Witnesses: each statement's hypotheses are met together, each clause on its own. -/

/-- A block busy in a write that was never answered, with a request waiting. -/
def busy : State :=
  { block .measuring true [] [] with inProgress := some (.call (.write [0x02, 0x02])), requests := [.operation 0x9 []] }

theorem witness_AcceptedRequestIsItsEncoding : ∃ r i, decode r = .ok i := ⟨.operation 0x9 [], .poll, rfl⟩

theorem witness_ReservedSelectionIsRefused : ∃ (s : State) (c : BitVec 4) (operands : List Byte) (rest : List Request),
    c ∈ [0x5#4, 0x6#4, 0x7#4, 0xC#4, 0xD#4, 0xE#4, 0xF#4] ∧ s.requests = .operation c operands :: rest ∧
    s.inProgress = none :=
  ⟨{ block .measuring true [] [] with requests := [.operation 0xF [1]] }, 0xF, [1], [], by decide, rfl, rfl⟩

theorem witness_WrongOperandLengthIsRefused : ∃ (s : State) (c : BitVec 4) (operands : List Byte) (rest : List Request),
    c ∈ [0x1#4, 0x2#4, 0x3#4, 0x4#4, 0x8#4, 0x9#4, 0xA#4, 0xB#4] ∧ operands.length ≠ operandCount c ∧
    s.requests = .operation c operands :: rest ∧ s.inProgress = none :=
  ⟨{ block .measuring true [] [] with requests := [.operation 0x4 [1]] }, 0x4, [1], [], by decide, by decide, rfl, rfl⟩

theorem witness_StepRunsTheDecodedInstruction : ∃ (s : State) (r : Request) (rest : List Request) (i : Instr),
    s.requests = r :: rest ∧ s.inProgress = none ∧ decode r = .ok i :=
  ⟨{ block .measuring true [] [] with requests := [.operation 0x8 []] }, .operation 0x8 [], [], .init, rfl, rfl, rfl⟩

theorem witness_BusyBlockRefusesOperations :
    (∃ (s : State) (r : Request) (rest : List Request) (p : Pending), s.requests = r :: rest ∧ s.inProgress = some p) ∧
    ∃ s : State, s.requests = [] :=
  ⟨⟨busy, _, _, _, rfl, rfl⟩, block .measuring true [] [], rfl⟩

theorem witness_HostReadsOnlyBetweenOperations :
    (∃ s : State, s.inProgress = none) ∧ ∃ s : State, s.inProgress ≠ none :=
  ⟨⟨block .measuring true [] [], rfl⟩, busy, by decide⟩

theorem witness_FramesCarryAChecksumIffAnArgument :
    (∃ t, exec (.bldarg 1 2) (block .stopped true [] []) = .next t ∧
      t.result = some (.ok (.frame [0x00, 0x01, 0x00, 0x02, 0xE3]))) ∧
    (∃ t, exec (.bldcmd 1) (block .stopped true [] []) = .next t ∧ t.result = some (.ok (.frame [0x00, 0x01]))) ∧
    ∃ t new, exec .init (block .stopped false [.failed, .ok] []) = .next t ∧ t.events = [] ++ new ∧
      Event.write [0xD1, 0x00] .noAck ∈ new ∧ Event.write [0x00, 0x10, 0x03, 0x00, 0xAC] .ok ∈ new :=
  ⟨⟨_, rfl, by decide +kernel⟩, ⟨_, rfl, by decide⟩, _, _, rfl, rfl, by decide +kernel, by decide +kernel⟩

theorem witness_CorruptedChecksumSpoilsOneField :
    ∃ (r : Record) (k : Byte), k ≠ (blockOf r)[11] :=
  ⟨Vector.replicate 10 0, 0x80, by decide +kernel⟩

theorem witness_InitStartsMeasuring : ∃ (s : State) (rest : List Reply) (f0 f1 f2 : Byte) (more : List Byte),
    WaitAnswer.never ∉ s.waits.take 2 ∧ s.answers = .ok :: .ok :: .ok :: rest ∧ s.rx = f0 :: f1 :: f2 :: more :=
  ⟨block .uninitialized false [.ok, .ok, .ok] [1, 2, 23], [], 1, 2, 23, [], by decide, rfl, rfl⟩

/-- V41, V43, V43 with a failed start, V42, V43a. -/
theorem witness_InitFollowsTheAnswers :
    (∃ s : State, WaitAnswer.never ∉ s.waits.take 2 ∧ s.answers = [.ok, .ok, .failed] ∧ s.rx = [1, 2, 23]) ∧
    (∃ s : State, WaitAnswer.never ∉ s.waits.take 2 ∧ s.answers = [.ok, .failed, .ok]) ∧
    (∃ s : State, WaitAnswer.never ∉ s.waits.take 2 ∧ s.answers = [.ok, .failed, .failed]) ∧
    (∃ s : State, WaitAnswer.never ∉ s.waits.take 1 ∧ s.answers = [.failed, .ok]) ∧
    ∃ s : State, WaitAnswer.never ∉ s.waits.take 1 ∧ s.answers = [.failed, .failed] :=
  ⟨⟨block .stopped false [.ok, .ok, .failed] [1, 2, 23], by decide, rfl, rfl⟩,
    ⟨block .stopped false [.ok, .failed, .ok] [], by decide, rfl⟩,
    ⟨block .stopped false [.ok, .failed, .failed] [], by decide, rfl⟩,
    ⟨block .stopped false [.failed, .ok] [], by decide, rfl⟩, block .stopped false [.failed, .failed] [], by decide, rfl⟩

/-- For InitOutcomes, PollOutcomes, ReadOutcomes, DeinitAlwaysDisablesTheRail and
EveryOperationEndsWhenTheTransportReturns. -/
theorem witness_Returns : ∃ s : State, Returns s :=
  ⟨{ block .measuring true [.ok, .failed] [0x00, 0x01] with waits := [.returns] }, by
    simp [Returns, TransportReturns, WaitsReturn, block]⟩

theorem witness_InitFailureMeansStartNotAcknowledged : ∃ s t,
    exec .init s = .next t ∧ t.result = some (.error .initFailure) ∧
    t.events.getLast? = some (.write [0x00, 0x10, 0x03, 0x00, 0xAC] .noAck) :=
  ⟨block .stopped false [.failed, .failed] [], _, rfl, by decide +kernel, by decide +kernel⟩

theorem witness_DrdyQueryRaisesTheFirstFailure :
    (∃ (s : State) (rest : List Reply), s.answers = .failed :: rest) ∧
    (∃ (s : State) (rest : List Reply), WaitAnswer.never ∉ s.waits.take 1 ∧ s.answers = .ok :: .failed :: rest) ∧
    ∃ (s : State) (rest : List Reply) (b0 b1 : Byte) (more : List Byte),
      WaitAnswer.never ∉ s.waits.take 1 ∧ s.answers = .ok :: .ok :: rest ∧ s.rx = b0 :: b1 :: more :=
  ⟨⟨block .measuring true [.failed] [], _, rfl⟩, ⟨block .measuring true [.ok, .failed] [], _, by decide, rfl⟩,
    block .measuring true [.ok, .ok] [0x00, 0x02], _, _, _, _, by decide, rfl, rfl⟩

/-- The two sides of the readiness test at their boundary. -/
theorem witness_OnlyOneMeansReady :
    (∃ s : State, WaitAnswer.never ∉ s.waits.take 1 ∧ s.answers = [.ok, .ok] ∧ s.rx = [0x00, 0x01] ∧
      resultOf (exec .poll s) = some (.ok (.ready true))) ∧
    ∃ s : State, WaitAnswer.never ∉ s.waits.take 1 ∧ s.answers = [.ok, .ok] ∧ s.rx = [0x00, 0x02] ∧
      resultOf (exec .poll s) = some (.ok (.ready false)) :=
  ⟨⟨block .measuring true [.ok, .ok] [0x00, 0x01], by decide, rfl, rfl, by decide⟩,
    block .measuring true [.ok, .ok] [0x00, 0x02], by decide, rfl, rfl, by decide⟩

theorem witness_ReadDeliversTheDecodedBlock : ∃ (s : State) (rest : List Reply) (q : Block) (more : List Byte),
    WaitAnswer.never ∉ s.waits.take 2 ∧ s.answers = .ok :: .ok :: .ok :: .ok :: rest ∧
    s.rx = 0x00 :: 0x01 :: (q.toList ++ more) :=
  ⟨block .measuring true [.ok, .ok, .ok, .ok] (0x00 :: 0x01 :: (zeroBlock.toList ++ [])), [], zeroBlock, [],
    by decide, rfl, rfl⟩

/-- V53, V54. -/
theorem witness_ReadFailsAfterReady :
    (∃ (s : State) (more : List Byte), s.rx = 0x00 :: 0x01 :: more ∧ WaitAnswer.never ∉ s.waits.take 1 ∧
      s.answers = [.ok, .ok, .failed]) ∧
    ∃ (s : State) (more : List Byte), s.rx = 0x00 :: 0x01 :: more ∧ WaitAnswer.never ∉ s.waits.take 2 ∧
      s.answers = [.ok, .ok, .ok, .failed] :=
  ⟨⟨block .measuring true [.ok, .ok, .failed] [0x00, 0x01], [], rfl, by decide, rfl⟩,
    block .measuring true [.ok, .ok, .ok, .failed] [0x00, 0x01], [], rfl, by decide, rfl⟩

/-- The two answers to the stop command: for the last clauses of DeinitAlwaysDisablesTheRail. -/
theorem witness_DeinitAlwaysDisablesTheRail :
    (∃ s : State, WaitAnswer.never ∉ s.waits.take 1 ∧ s.answers = [.ok]) ∧
    ∃ s : State, WaitAnswer.never ∉ s.waits.take 1 ∧ s.answers = [.failed] :=
  ⟨⟨block .measuring true [.ok] [], by decide, rfl⟩, block .measuring true [.failed] [], by decide, rfl⟩

theorem witness_NotReadyMeansNoReadCommand : ∃ s t, exec .read s = .next t ∧
    t.result = some (.error .notReadyError) :=
  ⟨block .measuring true [.ok, .ok] [0x00, 0x02], _, rfl, by decide⟩

/-- A READ that ends in PartialReadError, and one that ends in another error: for PartialReadIsTheOnlyErrorThatUpdatesMr,
FreshnessAfterRead, MrIsWrittenOnlyByDecode. -/
theorem witness_ReadErrors :
    (∃ s t, exec .read s = .next t ∧ t.result =
      some (.error (.partialReadError 0x002 #v[0, 0x11111111, 0, 0, 0, 0, 0, 0, 0, 0]))) ∧
    (∃ s t, exec .read s = .next t ∧ t.result = some (.ok (.record (Vector.replicate 10 0)))) ∧
    (∃ s t, exec .read s = .next t ∧ t.result = some (.error .busAckError)) ∧
    ∃ s t, exec .read s = .next t ∧ t.result = none :=
  ⟨⟨block .measuring true [.ok, .ok, .ok, .ok] ([0x00, 0x01] ++ spoiledBlock.toList), _, rfl, by decide +kernel⟩,
    ⟨block .measuring true [.ok, .ok, .ok, .ok] ([0x00, 0x01] ++ zeroBlock.toList), _, rfl, by decide +kernel⟩,
    ⟨block .measuring true [.failed] [], _, rfl, by decide⟩, block .measuring true [.never] [], _, rfl, by decide⟩

theorem witness_ChecksumErrorComesOnlyFromPrsword : ∃ s t,
    exec (.prsword 0x00 0x00 0x00) s = .next t ∧ t.result = some (.error .checksumError) :=
  ⟨block .measuring true [] [], _, rfl, by decide +kernel⟩

theorem witness_BusErrorsReportTheirTransfer :
    (∃ s t, exec .deinit s = .next t ∧ t.result = some (.error .busAckError)) ∧
    (∃ s t, exec .poll s = .next t ∧ t.result = some (.error .busReadError)) ∧
    ∃ s t, exec .init s = .next t ∧ t.events = s.events ++ t.events ∧
      Event.write [0x00, 0x10, 0x03, 0x00, 0xAC] .noAck ∈ t.events :=
  ⟨⟨block .measuring true [.failed] [], _, rfl, by decide⟩,
    ⟨block .measuring true [.ok, .failed] [], _, rfl, by decide⟩,
    block .stopped true [.failed, .failed] [], _, rfl, rfl, by decide +kernel⟩

theorem witness_FailedTransferIsNotInterpreted :
    (∃ t post, exec .deinit (block .measuring true [.failed] []) = .next t ∧
      t.events = [] ++ ([] ++ .write [0x01, 0x04] .noAck :: post)) ∧
    ∃ t, exec .poll (block .measuring true [.ok, .failed] []) = .next t ∧ Event.read 2 .fail ∈ t.events :=
  ⟨⟨_, _, rfl, rfl⟩, _, rfl, by decide⟩

/-- For the rules over every execution: SessionIsWrittenOnlyByInitAndDeinit, RailIsWrittenOnlyByInitAndDeinit, SessionAndRailGateNothing,
PastResultsAndEventsInfluenceNothing, PureOperationsProduceNoEvent and OperationsMakeBoundedTransfers. -/
theorem witness_exec : (∃ s t, exec .poll s = .next t ∧ t.events = s.events ++ t.events) ∧
    ∃ s t, exec .cmdStop s = .next t :=
  ⟨⟨block .measuring true [.ok, .ok] [0x00, 0x01], _, rfl, rfl⟩, block .measuring true [] [], _, rfl⟩

/-- Each list of answers in UnansweredCallLeavesTheBlockBusy, with the waits and bytes it asks for. -/
theorem witness_UnansweredCallLeavesTheBlockBusy :
    ∀ answers ∈ [[Reply.never], [.failed, .never], [.ok, .never], [.ok, .failed, .never], [.ok, .ok, .never],
      [.ok, .ok, .ok, .never]], ∃ s : State, s.answers = answers ∧ WaitAnswer.never ∉ s.waits.take 2 ∧
        WaitAnswer.never ∉ s.waits.take 1 ∧ s.rx = [0x00, 0x01, 0x02] :=
  fun answers _ => ⟨block .measuring true answers [0x00, 0x01, 0x02], rfl, by simp [block], by simp [block], rfl⟩

theorem witness_EndlessWaitLeavesTheBlockBusy :
    (∃ s : State, s.waits = [.never] ∧ s.answers = [.ok]) ∧ (∃ s : State, s.waits = [.never] ∧ s.answers = [.failed]) ∧
    (∃ s : State, s.waits = [.returns, .never] ∧ s.answers = [.ok]) ∧
    ∃ s : State, s.waits = [.returns, .never] ∧ s.answers = [.ok, .ok, .ok] ∧ s.rx = [0x00, 0x01] :=
  ⟨⟨{ block .measuring true [.ok] [] with waits := [.never] }, rfl, rfl⟩,
    ⟨{ block .measuring true [.failed] [] with waits := [.never] }, rfl, rfl⟩,
    ⟨{ block .measuring true [.ok] [] with waits := [.returns, .never] }, rfl, rfl⟩,
    { block .measuring true [.ok, .ok, .ok] [0x00, 0x01] with waits := [.returns, .never] }, rfl, rfl, rfl⟩

/-- A step from a state with events that meets every invariant: for the five StepKeeps statements. -/
theorem witness_invariants : ∃ s t : State, TrafficLegal s.events ∧ ReadsAnnounced s.events ∧
    ReadCommandsFollowReady s.events ∧ RailMatchesEvents s ∧ MeasuringIsPowered s ∧ BusyHasNoResult s ∧
    step s = .next t ∧ t.events ≠ s.events := by
  refine ⟨{ block .measuring true [.ok, .ok] [0x00, 0x01] with
    events := [.railOn], requests := [.operation 0x9 []] }, _, ?_, ?_, ?_, rfl, fun _ => rfl, fun h => absurd rfl h,
    rfl, by decide⟩
  · simp [TrafficLegal, LegalEvent]
  · intro pre n a post h
    rcases pre with _ | ⟨_, _ | _⟩ <;> simp at h
  · intro pre a post h
    rcases pre with _ | ⟨_, _ | _⟩ <;> simp at h

end Sys2Proof.Tests
end

section
/-!
What the host reads from MR and SESSION (U3, R168): one rule per reader and per phase of the block, idle or busy.
-/
namespace Sys2Proof.Machine

theorem State.hostReadMr_of_idle {s : State} (idle : s.inProgress = none) (i : Fin 10) :
    s.hostReadMr i = some s.mr[i] := by
  simp [State.hostReadMr, idle]

theorem State.hostReadMr_of_busy {s : State} {p : Pending} (busy : s.inProgress = some p) (i : Fin 10) :
    s.hostReadMr i = none := by
  simp [State.hostReadMr, busy]

theorem State.hostReadField_of_idle {s : State} (idle : s.inProgress = none) (f : FieldId) :
    s.hostReadField f = some s.mr[fieldIndex f] :=
  State.hostReadMr_of_idle idle (fieldIndex f)

theorem State.hostReadField_of_busy {s : State} {p : Pending} (busy : s.inProgress = some p) (f : FieldId) :
    s.hostReadField f = none :=
  State.hostReadMr_of_busy busy (fieldIndex f)

theorem State.hostReadSession_of_idle {s : State} (idle : s.inProgress = none) :
    s.hostReadSession = some s.session := by
  simp [State.hostReadSession, idle]

theorem State.hostReadSession_of_busy {s : State} {p : Pending} (busy : s.inProgress = some p) :
    s.hostReadSession = none := by
  simp [State.hostReadSession, busy]

/-- Settles O8: an idle block answers every reader with the register it names, the ten names at the indices of R11; a
busy block answers none. -/
theorem hostReadsOnlyBetweenOperations : Obligations.HostReadsOnlyBetweenOperations := by
  intro s
  constructor
  · intro idle
    have byName := State.hostReadField_of_idle idle
    exact ⟨State.hostReadMr_of_idle idle, byName .mc1p0, byName .mc2p5, byName .mc4p0, byName .mc10p0, byName .nc0p5,
      byName .nc1p0, byName .nc2p5, byName .nc4p0, byName .nc10p0, byName .tps, State.hostReadSession_of_idle idle⟩
  · intro notIdle
    obtain ⟨p, busy⟩ := Option.ne_none_iff_exists'.mp notIdle
    exact ⟨State.hostReadMr_of_busy busy, State.hostReadField_of_busy busy, State.hostReadSession_of_busy busy⟩

end Sys2Proof.Machine
end

section
/-!
The control registers SESSION and RAIL_EN (`spec/10_state.md` R24 to R27): which instruction writes them and with which rail
events, and that no instruction reads them (R121, decision D10).
-/
namespace Sys2Proof.Machine

/-- Settles O10: the reset state is written out with this session. -/
theorem resetSessionIsUninitialized : Obligations.ResetSessionIsUninitialized := rfl

/-! Who writes them: INIT, DEINIT and the others, each read off the ways it can run. -/

section Writers

variable {s t : State} {i : Instr} {new : List Event} {res : Option Result} {busy : Option Pending} {mr : Record}
  {session : Session} {rail : Bool}

/-- These events leave the rail alone. -/
def NoRailEvent (evs : List Event) : Prop := Event.railOn ∉ evs ∧ Event.railOff ∉ evs

theorem QueryEnded.noRailEvent {query : List Event} (h : QueryEnded query) : NoRailEvent query := by
  cases h <;> simp [NoRailEvent]

/-- INIT (R124) writes RAIL_EN before anything else, and SESSION only with `Ok`. -/
theorem Ran.control_of_init (h : Ran s .init new res busy mr session rail) :
    session = (if res = some (.ok .done) then .measuring else s.session) ∧ rail = true ∧
      ∃ rest, new = .railOn :: rest ∧ NoRailEvent rest := by
  cases h
  case initOk query hq | initFailed query hq | initHangsStart query hq _ =>
    obtain ⟨noOn, noOff⟩ := hq.noRailEvent
    exact ⟨by simp, rfl, _, rfl, by simp [NoRailEvent, noOn, noOff]⟩
  case initHangsSettle | initHangsQuery | initHangsFwver | initHangsVersion =>
    exact ⟨by simp, rfl, _, rfl, by simp [NoRailEvent]⟩
  case frame h | drdyNoAck h | drdyHangs h | drdyFailed h | drdyHangsWaiting h | drdyHangsReading h => simp at h

/-- DEINIT (R130) writes both registers once it is past its wait; stuck before that, it writes neither and has no result. -/
theorem Ran.control_of_deinit (h : Ran s .deinit new res busy mr session rail) :
    (res ≠ none ∧ session = .stopped ∧ rail = false ∧ ∃ before, new = before ++ [.railOff] ∧ NoRailEvent before) ∨
    (res = none ∧ session = s.session ∧ rail = s.railEn ∧ NoRailEvent new) := by
  cases h
  case deinitOk | deinitNoAck => exact .inl ⟨nofun, rfl, rfl, [_, _], rfl, by simp [NoRailEvent]⟩
  case deinitHangs | deinitHangsWaiting => exact .inr ⟨rfl, rfl, rfl, by simp [NoRailEvent]⟩
  case frame h | drdyNoAck h | drdyHangs h | drdyFailed h | drdyHangsWaiting h | drdyHangsReading h => simp at h

/-- Every other instruction leaves both registers and the rail alone. -/
theorem Ran.control_of_other (h : Ran s i new res busy mr session rail) (notInit : i ≠ .init) (notDeinit : i ≠ .deinit) :
    session = s.session ∧ rail = s.railEn ∧ NoRailEvent new := by
  cases h
  case initOk | initFailed | initHangsSettle | initHangsQuery | initHangsFwver | initHangsVersion | initHangsStart =>
    contradiction
  case deinitOk | deinitNoAck | deinitHangs | deinitHangsWaiting => contradiction
  all_goals exact ⟨rfl, rfl, by simp [NoRailEvent]⟩

theorem Ran.session_eq (h : Ran s i new res busy mr session rail) :
    session = if i = .init ∧ res = some (.ok .done) then .measuring
      else if i = .deinit ∧ res ≠ none then .stopped else s.session := by
  by_cases hi : i = .init
  · subst hi
    simp [h.control_of_init]
  by_cases hd : i = .deinit
  · subst hd
    obtain ⟨hres, rfl, -⟩ | ⟨rfl, rfl, -⟩ := h.control_of_deinit
    · simp [hres]
    · simp
  · simp [hi, hd, h.control_of_other hi hd]

theorem Ran.rail_eq_and_events (h : Ran s i new res busy mr session rail) :
    rail = (if i = .init then true else if i = .deinit ∧ res ≠ none then false else s.railEn) ∧
      (Event.railOn ∈ new ↔ i = .init) ∧ (Event.railOff ∈ new ↔ i = .deinit ∧ res ≠ none) := by
  by_cases hi : i = .init
  · subst hi
    obtain ⟨-, rfl, rest, rfl, noOn, noOff⟩ := h.control_of_init
    simp [noOff]
  by_cases hd : i = .deinit
  · subst hd
    obtain ⟨hres, -, rfl, before, rfl, noOn, noOff⟩ | ⟨rfl, -, rfl, noOn, noOff⟩ := h.control_of_deinit
    · simp [hres, noOn]
    · simp [noOn, noOff]
  · obtain ⟨-, rfl, noOn, noOff⟩ := h.control_of_other hi hd
    simp [hi, hd, noOn, noOff]

theorem exec_control_of_other (notInit : i ≠ .init) (notDeinit : i ≠ .deinit) (h : exec i s = .next t) :
    t.session = s.session ∧ t.railEn = s.railEn := by
  obtain ⟨_, _, _, _, _, _, after, ran⟩ := ran_of_exec h
  obtain ⟨rfl, rfl, -⟩ := ran.control_of_other notInit notDeinit
  exact ⟨after.session, after.railEn⟩

end Writers

/-- Settles O58: the rail events of a run are those that INIT and DEINIT make, and the events it adds are unique. -/
theorem railIsWrittenOnlyByInitAndDeinit : Obligations.RailIsWrittenOnlyByInitAndDeinit := by
  intro i s t h
  obtain ⟨new, res, busy, mr, session, rail, after, ran⟩ := ran_of_exec h
  obtain ⟨rail_eq, events⟩ := ran.rail_eq_and_events
  rw [after.railEn, after.result]
  refine ⟨rail_eq, fun new' h' => ?_⟩
  have same : new' = new := List.append_cancel_left (h'.symm.trans after.events)
  rwa [same]

/-! That no instruction reads them. -/

/-- s with other values in the two control registers. -/
def State.withControl (s : State) (v : Session) (b : Bool) : State := { s with session := v, railEn := b }

theorem State.reply_withControl (s : State) (v : Session) (b : Bool) : (s.withControl v b).reply = s.reply := rfl

theorem State.takeReply_withControl (s : State) (v : Session) (b : Bool) :
    (s.withControl v b).takeReply = s.takeReply.withControl v b := by
  unfold State.takeReply State.withControl
  cases s.answers <;> rfl

theorem State.busRead_never {s : State} (h : s.reply = .never) (n : Nat) (f : Vector Byte n → State → State)
    (g : State → State) : s.busRead n f g = s.takeReply.hang (.call (.read n)) := by
  simp [State.busRead, h]

/-- Whatever stands in the control registers, f does the same to all the rest of the state. -/
def IgnoresControl (f : State → State) : Prop :=
  ∀ s v b, ∃ v' b', f (s.withControl v b) = (f s).withControl v' b'

namespace IgnoresControl

variable {f g k : State → State}

theorem start : IgnoresControl State.start := fun _ v b => ⟨v, b, rfl⟩
theorem deliver (r : Value) : IgnoresControl (·.deliver r) := fun _ v b => ⟨v, b, rfl⟩
theorem raise (e : ErrorKind) : IgnoresControl (·.raise e) := fun _ v b => ⟨v, b, rfl⟩
theorem setSession (v : Session) : IgnoresControl (·.setSession v) := fun _ _ b => ⟨v, b, rfl⟩
theorem setRail (b : Bool) : IgnoresControl (·.setRail b) := fun _ v _ => ⟨v, b, rfl⟩

/-- One part of an operation after another. -/
theorem comp (hg : IgnoresControl g) (hf : IgnoresControl f) : IgnoresControl fun s => g (f s) := by
  intro s v b
  obtain ⟨v', b', h⟩ := hf s v b
  simpa only [h] using hg (f s) v' b'

theorem wait (w : WaitName) (hk : IgnoresControl k) : IgnoresControl (·.wait w k) := by
  intro s v b
  beta_reduce
  by_cases h : s.waits.head? = some .never
  · rw [State.wait_never h, State.wait_never (s := s.withControl v b) h]
    exact ⟨v, b, rfl⟩
  · rw [State.wait_returns h, State.wait_returns (s := s.withControl v b) h]
    exact hk (s.takeWait.emit (.wait w)) v b

theorem busWrite (frame : List Byte) (hf : IgnoresControl f) (hg : IgnoresControl g) :
    IgnoresControl (·.busWrite frame f g) := by
  intro s v b
  have same := s.reply_withControl v b
  beta_reduce
  cases h : s.reply <;> rw [h] at same
  case ok =>
    rw [State.busWrite_ok h, State.busWrite_ok same, State.takeReply_withControl]
    exact hf (s.takeReply.emit (.write frame .ok)) v b
  case failed =>
    rw [State.busWrite_failed h, State.busWrite_failed same, State.takeReply_withControl]
    exact hg (s.takeReply.emit (.write frame .noAck)) v b
  case never =>
    rw [State.busWrite_never h, State.busWrite_never same, State.takeReply_withControl]
    exact ⟨v, b, rfl⟩

theorem busRead {n : Nat} {f : Vector Byte n → State → State} (hf : ∀ q, IgnoresControl (f q)) (hg : IgnoresControl g) :
    IgnoresControl (·.busRead n f g) := by
  intro s v b
  have same := s.reply_withControl v b
  beta_reduce
  cases h : s.reply <;> rw [h] at same
  case ok =>
    rw [State.busRead_ok h, State.busRead_ok same, State.takeReply_withControl]
    exact hf _ ((s.takeReply.takeBytes n).emit (.read n (.ok (s.takeReply.received n).toList))) v b
  case failed =>
    rw [State.busRead_failed h, State.busRead_failed same, State.takeReply_withControl]
    exact hg (s.takeReply.emit (.read n .fail)) v b
  case never =>
    rw [State.busRead_never h, State.busRead_never same, State.takeReply_withControl]
    exact ⟨v, b, rfl⟩

theorem fwverQuery (hk : IgnoresControl k) : IgnoresControl (Machine.fwverQuery · k) :=
  .busWrite _ (.wait _ (.busRead (fun _ => hk) hk)) hk

theorem startMeasurement : IgnoresControl Machine.startMeasurement :=
  .busWrite _ (.comp (.deliver _) (.setSession _)) (.raise _)

theorem drdyQuery {k : Word → State → State} (hk : ∀ w, IgnoresControl (k w)) : IgnoresControl (Machine.drdyQuery · k) :=
  .busWrite _ (.wait _ (.busRead (fun _ => hk _) (.raise _))) (.raise _)

/-- The decoder reads MR alone, and only its mask chooses between the two results. -/
theorem finishRead (q : Block) : IgnoresControl (Machine.finishRead q) := by
  intro s v b
  have same : (s.withControl v b).mr = s.mr := rfl
  simp only [Machine.finishRead, same]
  split <;> exact ⟨v, b, rfl⟩

theorem readMeasurement : IgnoresControl Machine.readMeasurement :=
  .busWrite _ (.wait _ (.busRead .finishRead (.raise _))) (.raise _)

theorem shutDown {report : State → State} (h : IgnoresControl report) : IgnoresControl (Machine.shutDown · report) :=
  .wait _ (.comp h (.comp (.setSession _) (.setRail _)))

end IgnoresControl

/-- The meaning of every instruction, built from parts that ignore the control registers. -/
theorem exec_ignoresControl (i : Instr) : ∃ f, (∀ s, exec i s = .next (f s)) ∧ IgnoresControl f := by
  cases i with
  | crc8 | bldcmd | bldarg | cmdStart | cmdDrdy | cmdRead | cmdStop | cmdReset | cmdFwver =>
    exact ⟨_, fun _ => rfl, .comp (.deliver _) .start⟩
  | prsword w0 w1 w2 =>
    refine ⟨_, fun _ => rfl, fun s v b => ⟨v, b, ?_⟩⟩
    cases parseWord w0 w1 w2 <;> rfl
  | decblk buf => exact ⟨_, fun _ => rfl, fun s v b => ⟨v, b, rfl⟩⟩
  | init => exact ⟨_, fun _ => rfl, .comp (.wait _ (.fwverQuery .startMeasurement)) (.comp (.setRail _) .start)⟩
  | poll => exact ⟨_, fun _ => rfl, .comp (.drdyQuery fun _ => .deliver _) .start⟩
  | read =>
    refine ⟨_, fun _ => rfl, .comp (.drdyQuery fun v => ?_) .start⟩
    cases isReady v
    · exact .raise _
    · exact .readMeasurement
  | deinit => exact ⟨_, fun _ => rfl, .comp (.busWrite _ (.shutDown (.deliver _)) (.shutDown (.raise _))) .start⟩

/-- From other values of the control registers an instruction goes to a next state that differs there alone. -/
theorem exec_withControl {i : Instr} {s t : State} (h : exec i s = .next t) (v : Session) (b : Bool) :
    ∃ v' b', exec i (s.withControl v b) = .next (t.withControl v' b') := by
  obtain ⟨f, run, ignores⟩ := exec_ignoresControl i
  obtain ⟨v', b', hf⟩ := ignores s v b
  cases (run s).symm.trans h
  exact ⟨v', b', by rw [run, hf]⟩

/-- An instruction that writes neither register carries SESSION through: both runs end with what they began with. -/
theorem exec_setSession_of_other {i : Instr} {s t : State} (notInit : i ≠ .init) (notDeinit : i ≠ .deinit)
    (h : exec i s = .next t) (v : Session) : exec i (s.setSession v) = .next (t.setSession v) := by
  obtain ⟨v', b', h'⟩ := exec_withControl h v s.railEn
  obtain ⟨session', rail'⟩ := exec_control_of_other notInit notDeinit h'
  have hv : v' = v := session'
  have hb : b' = t.railEn := rail'.trans (exec_control_of_other notInit notDeinit h).2.symm
  rwa [hv, hb] at h'

/-- Settles O43: INIT and DEINIT write SESSION as their runs show; the others carry it through unread; the host's reader
is that of O8. -/
theorem sessionIsWrittenOnlyByInitAndDeinit : Obligations.SessionIsWrittenOnlyByInitAndDeinit := by
  refine ⟨fun i s t h => ?_, fun i s t v notInit notDeinit h => exec_setSession_of_other notInit notDeinit h v,
    fun s => State.hostReadSession_of_idle⟩
  obtain ⟨new, res, busy, mr, session, rail, after, ran⟩ := ran_of_exec h
  rw [after.session, after.result]
  exact ran.session_eq

end Sys2Proof.Machine
end

section
/-!
The bus traffic (`spec/20_memory.md` R49, R41): what counts as legal, event by event, and that every way an instruction can
run adds only legal events.
-/
namespace Sys2Proof.Safety

open Sys2Proof.Machine

@[simp] theorem legalEvent_railOn : LegalEvent .railOn := trivial
@[simp] theorem legalEvent_railOff : LegalEvent .railOff := trivial
@[simp] theorem legalEvent_wait (w : WaitName) : LegalEvent (.wait w) := trivial

@[simp] theorem legalEvent_write_iff (bytes : List Byte) (a : WriteAnswer) :
    LegalEvent (.write bytes a) ↔ bytes ∈ sentFrames := Iff.rfl

@[simp] theorem legalEvent_read_ok_iff (n : Nat) (bytes : List Byte) :
    LegalEvent (.read n (.ok bytes)) ↔ commandOf n ≠ none ∧ bytes.length = n := Iff.rfl

@[simp] theorem legalEvent_read_fail_iff (n : Nat) : LegalEvent (.read n .fail) ↔ commandOf n ≠ none := Iff.rfl

@[simp] theorem trafficLegal_nil : TrafficLegal [] := List.forall_mem_nil _

@[simp] theorem trafficLegal_cons_iff (e : Event) (evs : List Event) :
    TrafficLegal (e :: evs) ↔ LegalEvent e ∧ TrafficLegal evs := List.forall_mem_cons

@[simp] theorem trafficLegal_append_iff (before after : List Event) :
    TrafficLegal (before ++ after) ↔ TrafficLegal before ∧ TrafficLegal after := List.forall_mem_append

theorem reset_notMem_sentFrames : [0xD3#8, 0x04#8] ∉ sentFrames := by decide

end Sys2Proof.Safety

namespace Sys2Proof.Machine

open Sys2Proof.Safety

section Traffic

variable {s t : State} {i : Instr} {new : List Event} {res : Option Result} {busy : Option Pending} {mr : Record}
  {session : Session} {rail : Bool}

theorem QueryEnded.trafficLegal {query : List Event} (h : QueryEnded query) : TrafficLegal query := by
  cases h <;> simp [sentFrames, commandOf]

/-- Nothing illegal in any way to run: the frames written are those of R49's list, and the lengths read are 2, 3 and 60. -/
theorem Ran.trafficLegal (h : Ran s i new res busy mr session rail) : TrafficLegal new := by
  cases h
  case crc8 | bldcmd | bldarg | word | badWord | decblk | frame => exact trafficLegal_nil
  case initOk query hq | initFailed query hq | initHangsStart query hq _ =>
    simp [hq.trafficLegal, sentFrames]
  case initHangsSettle | initHangsQuery | initHangsFwver | initHangsVersion => simp [sentFrames]
  case drdyNoAck | drdyHangs | drdyFailed | drdyHangsWaiting | drdyHangsReading | polled | notReady =>
    simp [sentFrames, commandOf]
  case readNoAck | readHangs | readFailed | readHangsWaiting | readHangsReading | decoded => simp [sentFrames, commandOf]
  case deinitOk | deinitNoAck | deinitHangsWaiting | deinitHangs => simp [sentFrames]

theorem exec_keeps_trafficLegal (legal : TrafficLegal s.events) (h : exec i s = .next t) : TrafficLegal t.events := by
  obtain ⟨new, _, _, _, _, _, after, ran⟩ := ran_of_exec h
  rw [after.events, trafficLegal_append_iff]
  exact ⟨legal, ran.trafficLegal⟩

end Traffic

/-- Settles O51: a step adds nothing, or runs one instruction, whose added events are legal in every way it can run. -/
theorem stepKeepsTrafficLegal : Obligations.StepKeepsTrafficLegal := by
  refine ⟨reset_notMem_sentFrames, fun s t legal h => ?_⟩
  obtain ⟨-, rfl⟩ | ⟨i, r, rest, -, -, -, ran⟩ := step_cases h
  · exact legal
  · exact exec_keeps_trafficLegal (s := { s with requests := rest }) legal ran

end Sys2Proof.Machine
end

section
/-!
The encodings of `spec/30_encoding.md` at work: the two byte orders of a word (R67), the one checksum byte that fits a pair
of data bytes (R78), and the one value of a data-ready query that means ready (R77).
-/
namespace Sys2Proof.Machine

@[simp] theorem bytes16_be16 (b0 b1 : Byte) : bytes16 (be16 b0 b1) = [b0, b1] := by
  simp [bytes16]

/-- Settles O16: the high and low byte of a word join to it again, and are the two bytes a word was joined from. -/
theorem bigEndianWordsRoundTrip : Obligations.BigEndianWordsRoundTrip :=
  ⟨fun v => ⟨hiByte v, loByte v, rfl, be16_hiByte_loByte v⟩, fun b0 b1 => ⟨bytes16_be16 b0 b1, be16_toNat b0 b1⟩⟩

/-- PRSWORD (R105) writes its result and nothing else: the value when the third byte is the checksum of the other two. -/
theorem exec_prsword (w0 w1 w2 : Byte) (s : State) :
    exec (.prsword w0 w1 w2) s = .next { s with
      result := some (if w2 = crc8 [w0, w1] then .ok (.word (be16 w0 w1)) else .error .checksumError) } := by
  change execPrsword w0 w1 w2 s = _
  unfold execPrsword parseWord
  by_cases good : crc8 [w0, w1] = w2
  · rw [if_pos good, if_pos good.symm]
    rfl
  · rw [if_neg good, if_neg (Ne.symm good)]
    rfl

theorem exec_prsword_delivers_iff (w0 w1 w2 : Byte) (s : State) :
    (∃ t v, exec (.prsword w0 w1 w2) s = .next t ∧ t.result = some (.ok (.word v))) ↔ w2 = crc8 [w0, w1] := by
  rw [exec_prsword]
  constructor
  · rintro ⟨_, v, ⟨⟩, delivered⟩
    by_contra mismatch
    simp [mismatch] at delivered
  · intro good
    exact ⟨_, be16 w0 w1, rfl, by simp [good]⟩

/-- Settles O21: the one byte is the checksum of the two data bytes. -/
theorem oneChecksumByteIsAcceptedPerWord : Obligations.OneChecksumByteIsAcceptedPerWord := by
  intro w0 w1 s
  simp only [exec_prsword_delivers_iff]
  exact existsUnique_eq

/-- A write whose acknowledgement is written down. -/
theorem State.busWrite_answered {s : State} {rest : List Reply} (answers : s.answers = .ok :: rest) (frame : List Byte)
    (f g : State → State) : s.busWrite frame f g = f ({ s with answers := rest }.emit (.write frame .ok)) := by
  rw [State.busWrite_ok (State.reply_cons answers), State.takeReply_cons answers]

/-- A read whose success and whose bytes are written down. -/
theorem State.busRead_answered {s : State} {rest : List Reply} {n : Nat} {q : Vector Byte n} {more : List Byte}
    (answers : s.answers = .ok :: rest) (rx : s.rx = q.toList ++ more) (f : Vector Byte n → State → State)
    (g : State → State) :
    s.busRead n f g = f q ({ s with answers := rest, rx := more }.emit (.read n (.ok q.toList))) := by
  have rx' : s.takeReply.rx = q.toList ++ more := (State.takeReply_rx s).trans rx
  rw [State.busRead_ok (State.reply_cons answers), State.received_append rx', State.takeBytes_append rx',
    State.takeReply_cons answers]

/-- The data-ready query (R127) where the write is acknowledged, the wait returns and the read brings two bytes. -/
theorem drdyQuery_of_answered {s : State} {rest : List Reply} {b0 b1 : Byte} {more : List Byte}
    (waits : WaitAnswer.never ∉ s.waits.take 1) (answers : s.answers = .ok :: .ok :: rest)
    (rx : s.rx = b0 :: b1 :: more) (k : Word → State → State) :
    drdyQuery s k = k (be16 b0 b1) { s with
      answers := rest, rx := more, waits := s.waits.tail
      events := s.events ++ [.write [0x02, 0x02] .ok, .wait .poll, .read 2 (.ok [b0, b1])] } := by
  obtain ⟨-, frame, -⟩ := frame_bytes
  unfold drdyQuery
  rw [frame, State.busWrite_answered answers, State.wait_returns,
    State.busRead_answered (q := #v[b0, b1]) (rest := rest) (more := more)]
  · simp [State.emit, State.takeWait]
  · rfl
  · exact rx
  · exact head_returns waits

theorem isReady_be16 (b0 b1 : Byte) : isReady (be16 b0 b1) = decide (256 * b0.toNat + b1.toNat = 1) := by
  rw [← be16_toNat]
  exact decide_eq_decide.mpr BitVec.toNat_inj.symm

/-- Settles O31: POLL delivers the test of the value its answered query brought. -/
theorem onlyOneMeansReady : Obligations.OnlyOneMeansReady := by
  intro s rest b0 b1 more waits answers rx
  refine ⟨_, rfl, ?_⟩
  rw [drdyQuery_of_answered (s := s.start) waits answers rx, State.deliver_result, isReady_be16]

end Sys2Proof.Machine
end

section
/-!
The Checksum Codec (`spec/40_checksum.md`): one round is linear and loses nothing, so neither do the eight rounds of a byte
(R93), and CRC8 takes a sequence one byte at a time.
-/
namespace Sys2Proof.Machine

/-! One round. -/

/-- The high bit that a round tests is the byte's `msb` (R90). -/
theorem crcRound_eq_msb : crcRound = fun acc : Byte => if acc.msb then (acc <<< 1) ^^^ 0x31#8 else acc <<< 1 := by
  funext acc
  rw [BitVec.msb_eq_getLsbD_last]
  rfl

/-- The test of a round chooses only what is exclusive-ored into the shifted accumulator: the polynomial or nothing. -/
theorem crcRound_eq_xor (acc : Byte) :
    crcRound acc = acc <<< 1 ^^^ (if acc.getLsbD 7 then crcPoly else 0) := by
  unfold crcRound
  cases acc.getLsbD 7
  · exact (BitVec.xor_zero).symm
  · rfl

/-- Two equal operands cancel, so a choice by the exclusive-or of two bits splits into the two choices. -/
theorem ite_xor_eq (x y : Bool) (p : Byte) :
    (if (x ^^ y) = true then p else 0) = (if x then p else 0) ^^^ (if y then p else 0) := by
  cases x <;> cases y <;> simp

theorem crcRound_xor (a b : Byte) : crcRound (a ^^^ b) = crcRound a ^^^ crcRound b := by
  simp only [crcRound_eq_xor, BitVec.shiftLeft_xor_distrib, BitVec.getLsbD_xor, ite_xor_eq]
  ac_rfl

/-- The bit shifted out stands in bit 0 of the result, because the low bit of the polynomial is 1 (R93 d). -/
theorem getLsbD_zero_crcRound (acc : Byte) : (crcRound acc).getLsbD 0 = acc.getLsbD 7 := by
  rw [crcRound_eq_xor]
  cases acc.getLsbD 7 <;> simp [crcPoly]

/-- A shift loses the high bit alone. -/
theorem eq_of_shiftLeft_one_eq {a b : Byte} (high : a.getLsbD 7 = b.getLsbD 7) (shifted : a <<< 1 = b <<< 1) : a = b := by
  ext i hi
  obtain rfl | low : i = 7 ∨ i + 1 < 8 := by omega
  · exact high
  · have bit := congrArg (·.getLsbD (i + 1)) shifted
    simpa [low] using bit

theorem crcRound_injective : Function.Injective crcRound := by
  intro a b h
  have high : a.getLsbD 7 = b.getLsbD 7 := by
    rw [← getLsbD_zero_crcRound a, h, getLsbD_zero_crcRound b]
  rw [crcRound_eq_xor a, crcRound_eq_xor b, high] at h
  exact eq_of_shiftLeft_one_eq high ((BitVec.xor_left_inj _).mp h)

/-! Eight rounds. -/

theorem crcStep_eq_iterate (acc b : Byte) : crcStep acc b = crcRound^[8] (acc ^^^ b) := rfl

theorem iterate_crcRound_xor (n : Nat) (a b : Byte) :
    crcRound^[n] (a ^^^ b) = crcRound^[n] a ^^^ crcRound^[n] b := by
  induction n generalizing a b with
  | zero => rfl
  | succ n ih => simp only [Function.iterate_succ_apply, crcRound_xor, ih]

theorem crcStep_zero_left (b : Byte) : crcStep 0 b = crcRound^[8] b := by
  rw [crcStep_eq_iterate]
  exact congrArg _ BitVec.zero_xor

theorem crcStep_bijective (acc : Byte) : Function.Bijective (crcStep acc) :=
  Finite.injective_iff_bijective.mp fun _ _ h =>
    (BitVec.xor_right_inj acc).mp (crcRound_injective.iterate 8 h)

/-- Settles O15: a step is the eight rounds of the exclusive-or, each of them linear. -/
theorem crcStepIsLinear : Obligations.CrcStepIsLinear := by
  refine ⟨fun a b => ?_, by decide, fun a b => ?_⟩
  · rw [crcStep_zero_left, crcStep_eq_iterate]
  · simp only [crcStep_zero_left, iterate_crcRound_xor]

/-! A sequence of bytes. -/

/-- R93 c: the accumulator alone carries a sequence on. -/
theorem crc8_concat (bytes : List Byte) (b : Byte) : crc8 (bytes ++ [b]) = crcStep (crc8 bytes) b :=
  List.foldl_concat crcStep crcInit b bytes

/-- Settles O14: the last byte enters by one step, and a step is a bijection of its byte. -/
theorem crc8LastByteIsABijection : Obligations.Crc8LastByteIsABijection := by
  intro bytes
  simp only [crc8_concat]
  exact crcStep_bijective (crc8 bytes)

/-- Settles O13: the function is CRC8, and its equation for one more byte is that of the step. -/
theorem crc8FollowsTheRoundProcedure : Obligations.Crc8FollowsTheRoundProcedure := by
  refine ⟨crc8, fun _ _ => rfl, rfl, fun bytes b => ?_⟩
  rw [← crcRound_eq_msb, ← crcStep_eq_iterate]
  exact crc8_concat bytes b

end Sys2Proof.Machine
end

section
/-!
The Frame Builder/Parser (`spec/41_frame.md`): which frames an instruction delivers and sends, and when they carry a
checksum (R103); what PRSWORD accepts (R105).
-/
namespace Sys2Proof.Machine

open Sys2Proof.Safety

/-- Settles O20: the rule of PRSWORD itself. -/
theorem prswordAcceptsExactlyTheChecksum : Obligations.PrswordAcceptsExactlyTheChecksum := exec_prsword

/-- The five-byte form F-CA (R61): its last byte is the checksum of the two before it. -/
def HasChecksum (fr : List Byte) : Prop := ∃ c1 c0 a1 a0 : Byte, fr = [c1, c0, a1, a0, crc8 [a1, a0]]

/-- The instructions with an argument for a frame (R102, R70). -/
def CarriesArgument (i : Instr) : Prop := (∃ cmd arg, i = .bldarg cmd arg) ∨ ∃ arg chk, i = .cmdStart arg chk

theorem not_carriesArgument_iff (i : Instr) :
    ¬ CarriesArgument i ↔ (∀ cmd arg, i ≠ .bldarg cmd arg) ∧ ∀ arg chk, i ≠ .cmdStart arg chk := by
  simp only [CarriesArgument, not_or, not_exists, ne_eq]

theorem buildCmd_length (cmd : Word) : (buildCmd cmd).length = 2 := rfl

theorem buildArg_hasChecksum (cmd arg : Word) : HasChecksum (buildArg cmd arg) :=
  ⟨hiByte cmd, loByte cmd, hiByte arg, loByte arg, rfl⟩

/-- The frames of R49: all have two bytes but the start frame, which is built by the rule of BLDARG (R124). -/
theorem length_or_hasChecksum_of_mem_sentFrames {fr : List Byte} (h : fr ∈ sentFrames) :
    fr.length = 2 ∨ HasChecksum fr := by
  obtain ⟨start, -⟩ := frame_bytes
  rw [sentFrames, ← start] at h
  simp only [List.mem_cons, List.not_mem_nil, or_false] at h
  obtain rfl | rfl | rfl | rfl | rfl := h
  · exact .inl rfl
  · exact .inr (buildArg_hasChecksum wordStart argStart)
  · exact .inl rfl
  · exact .inl rfl
  · exact .inl rfl

section Frames

variable {s : State} {i : Instr} {new : List Event} {res : Option Result} {busy : Option Pending} {mr : Record}
  {session : Session} {rail : Bool} {fr : List Byte}

/-- READ delivers a record or an error. -/
theorem readResult_ne_frame (next : Record) (mask : ErrMask) (fr : List Byte) :
    readResult next mask ≠ .ok (.frame fr) := by
  unfold readResult
  split <;> nofun

/-- Frames are delivered by BLDCMD, BLDARG and the rows of the command map alone, and each builds one of the two forms. -/
theorem Ran.delivered_frame (h : Ran s i new res busy mr session rail) (delivered : res = some (.ok (.frame fr))) :
    (CarriesArgument i ∧ HasChecksum fr) ∨ (¬ CarriesArgument i ∧ fr.length = 2) := by
  cases h
  case bldcmd cmd =>
    cases delivered
    exact .inr ⟨by simp [CarriesArgument], buildCmd_length cmd⟩
  case bldarg cmd arg =>
    cases delivered
    exact .inl ⟨.inl ⟨cmd, arg, rfl⟩, buildArg_hasChecksum cmd arg⟩
  case frame row =>
    cases delivered
    obtain ⟨arg, chk, rfl, rfl⟩ | row := row
    · exact .inl ⟨.inr ⟨arg, chk, rfl⟩, buildArg_hasChecksum wordStart arg⟩
    · obtain ⟨rfl, rfl⟩ | ⟨rfl, rfl⟩ | ⟨rfl, rfl⟩ | ⟨rfl, rfl⟩ | ⟨rfl, rfl⟩ := row <;>
        exact .inr ⟨by simp [CarriesArgument], rfl⟩
  case decoded q => exact absurd (Option.some.inj delivered) (readResult_ne_frame _ _ fr)
  all_goals cases delivered

/-- Every frame sent is one of R49's. -/
theorem Ran.sent_frame {answer : WriteAnswer} (h : Ran s i new res busy mr session rail)
    (sent : Event.write fr answer ∈ new) : fr.length = 2 ∨ HasChecksum fr :=
  length_or_hasChecksum_of_mem_sentFrames ((legalEvent_write_iff fr answer).mp (h.trafficLegal _ sent))

end Frames

/-- Settles O19: the frame delivered is read off the way the instruction ran; the frames sent are legal traffic. -/
theorem framesCarryAChecksumIffAnArgument : Obligations.FramesCarryAChecksumIffAnArgument := by
  intro i s t h
  obtain ⟨new, res, busy, mr, session, rail, after, ran⟩ := ran_of_exec h
  refine ⟨fun fr delivered => ?_, fun new' fr answer h' sent => ?_⟩
  · rw [← and_assoc, ← not_carriesArgument_iff]
    exact ran.delivered_frame (after.result.symm.trans delivered)
  · have same : new' = new := List.append_cancel_left (h'.symm.trans after.events)
    rw [same] at sent
    exact ran.sent_frame sent

end Sys2Proof.Machine
end

section
/-!
The Measurement Decoder (`spec/42_measurement_decoder.md`): the six bytes of a group and what DECODE makes of them (R110),
whether the block carries what it should (R114) or one byte of it is wrong (R117).
-/
namespace Sys2Proof.Machine

/-! One group. -/

/-- Byte k of group i (R65). -/
def groupByte (buf : Block) (i : Fin 10) (k : Fin 6) : Byte := buf[6 * i.val + k.val]

/-- Whether both checksums of group i match (R104). -/
def groupGood (buf : Block) (i : Fin 10) : Bool :=
  crc8 [groupByte buf i 0, groupByte buf i 1] == groupByte buf i 2 &&
    crc8 [groupByte buf i 3, groupByte buf i 4] == groupByte buf i 5

/-- The pattern in the four data bytes of group i (R69). -/
def groupPattern (buf : Block) (i : Fin 10) : Pattern :=
  be32 (groupByte buf i 0) (groupByte buf i 1) (groupByte buf i 3) (groupByte buf i 4)

theorem decodeGroup_eq (buf : Block) (i : Fin 10) :
    decodeGroup buf i = if groupGood buf i then some (groupPattern buf i) else none := by
  simp only [decodeGroup, parseWord, groupGood, groupPattern, groupByte, be32, Fin.isValue, Fin.val_zero, add_zero,
    Bool.and_eq_true, beq_iff_eq]
  by_cases wordA : crc8 [buf[6 * i.val], buf[6 * i.val + 1]] = buf[6 * i.val + 2]
  · by_cases wordB : crc8 [buf[6 * i.val + 3], buf[6 * i.val + 4]] = buf[6 * i.val + 5]
    · simp [wordA, wordB]
    · simp [wordB]
  · simp [wordA]

/-- Settles O22: the law of the loop at field i, with the group's outcome by its two checksums. -/
theorem decodeTreatsEachGroupOnItsOwn : Obligations.DecodeTreatsEachGroupOnItsOwn := by
  intro prior buf i
  change (decodeBlock prior buf).1[i] = (if groupGood buf i then groupPattern buf i else prior[i]) ∧
    (decodeBlock prior buf).2.getLsbD i.val = !groupGood buf i
  rw [decodeBlock_field, decodeBlock_mask, decodeGroup_eq]
  cases groupGood buf i <;> exact ⟨rfl, rfl⟩

/-- The groups decide the outcome: its record field by field, its mask bit by bit. -/
theorem decodeBlock_eq {prior next : Record} {buf : Block} {mask : ErrMask}
    (field : ∀ i : Fin 10, (decodeGroup buf i).getD prior[i] = next[i])
    (bit : ∀ i : Fin 10, (decodeGroup buf i).isNone = mask.getLsbD i.val) :
    decodeBlock prior buf = (next, mask) :=
  Prod.ext
    (Vector.ext fun i h => (decodeBlock_field prior buf ⟨i, h⟩).trans (field ⟨i, h⟩))
    (BitVec.eq_of_getLsbD_eq fun i h => (decodeBlock_mask prior buf ⟨i, h⟩).trans (bit ⟨i, h⟩))

/-! A correct block. -/

/-- The six bytes of a group as a sender writes them (R64). -/
theorem groupByte_blockOf (r : Record) (i : Fin 10) (k : Fin 6) :
    groupByte (blockOf r) i k = (groupBytes r[i]).getD k.val 0 := by
  have group : (6 * i.val + k.val) / 6 = i.val := by omega
  have place : (6 * i.val + k.val) % 6 = k.val := by omega
  simp [groupByte, blockOf, group, place]

theorem groupGood_blockOf (r : Record) (i : Fin 10) : groupGood (blockOf r) i = true := by
  simp [groupGood, groupByte_blockOf, groupBytes, responseWord, bytes16]

/-- The two halves of a pattern join to it again (R69). -/
theorem groupPattern_blockOf (r : Record) (i : Fin 10) : groupPattern (blockOf r) i = r[i] := by
  have halves : groupPattern (blockOf r) i = r[i].extractLsb' 16 16 ++ r[i].extractLsb' 0 16 := by
    simp [groupPattern, groupByte_blockOf, groupBytes, responseWord, bytes16, be32]
  rw [halves]
  exact (BitVec.extractLsb'_append_extractLsb'_eq_extractLsb' (start₁ := 0) (len₁ := 16) (len₂ := 16) rfl).trans
    BitVec.extractLsb'_eq_self

theorem decodeGroup_blockOf (r : Record) (i : Fin 10) : decodeGroup (blockOf r) i = some r[i] := by
  rw [decodeGroup_eq, if_pos (groupGood_blockOf r i), groupPattern_blockOf]

/-- Settles O24: every group of the block decodes to its pattern. -/
theorem everyPatternIsStoredBitExactly : Obligations.EveryPatternIsStoredBitExactly := by
  intro prior r
  refine decodeBlock_eq (fun i => ?_) fun i => ?_
  · rw [decodeGroup_blockOf, Option.getD_some]
  · rw [decodeGroup_blockOf]
    exact BitVec.getLsbD_zero.symm

/-! One wrong byte. -/

/-- The block with byte k of group i replaced. -/
def setGroupByte (buf : Block) (i : Fin 10) (k : Fin 6) (v : Byte) : Block := buf.set (6 * i.val + k.val) v

theorem groupByte_setGroupByte (buf : Block) (i j : Fin 10) (k l : Fin 6) (v : Byte) :
    groupByte (setGroupByte buf i k v) j l = if j = i ∧ l = k then v else groupByte buf j l := by
  have same : 6 * i.val + k.val = 6 * j.val + l.val ↔ j = i ∧ l = k := by omega
  simp only [groupByte, setGroupByte, Vector.getElem_set, same]

/-- A byte of group i is read by iteration i alone (R110). -/
theorem decodeGroup_setGroupByte_of_ne {i j : Fin 10} (other : j ≠ i) (buf : Block) (k : Fin 6) (v : Byte) :
    decodeGroup (setGroupByte buf i k v) j = decodeGroup buf j := by
  have same (l : Fin 6) : groupByte (setGroupByte buf i k v) j l = groupByte buf j l := by
    rw [groupByte_setGroupByte, if_neg (other ·.1)]
  have good : groupGood (setGroupByte buf i k v) j = groupGood buf j := by simp only [groupGood, same]
  have pattern : groupPattern (setGroupByte buf i k v) j = groupPattern buf j := by simp only [groupPattern, same]
  rw [decodeGroup_eq, decodeGroup_eq, good, pattern]

/-- The checksum of word B of a correct group is fixed by its data (R78). -/
theorem decodeGroup_setGroupByte_eq_none {buf : Block} {i : Fin 10} {v : Byte} (good : groupGood buf i = true)
    (wrong : v ≠ groupByte buf i 5) : decodeGroup (setGroupByte buf i 5 v) i = none := by
  have fixed : crc8 [groupByte buf i 3, groupByte buf i 4] = groupByte buf i 5 :=
    eq_of_beq (Bool.and_eq_true_iff.mp good).2
  have bad : groupGood (setGroupByte buf i 5 v) i = false := by
    simp [groupGood, groupByte_setGroupByte, fixed, wrong.symm]
  rw [decodeGroup_eq, bad]
  rfl

/-- One field is stale, with its bit set, and the other nine are decoded (R112, R113). -/
theorem decodeBlock_setGroupByte_checksum (prior r : Record) (i : Fin 10) (v : Byte)
    (wrong : v ≠ groupByte (blockOf r) i 5) :
    decodeBlock prior (setGroupByte (blockOf r) i 5 v) = (r.set i.val prior[i], setError 0 i) := by
  have failed := decodeGroup_setGroupByte_eq_none (groupGood_blockOf r i) wrong
  have decoded (j : Fin 10) (other : j ≠ i) : decodeGroup (setGroupByte (blockOf r) i 5 v) j = some r[j] :=
    (decodeGroup_setGroupByte_of_ne other (blockOf r) 5 v).trans (decodeGroup_blockOf r j)
  refine decodeBlock_eq (fun j => ?_) fun j => ?_ <;> obtain rfl | other := eq_or_ne j i
  · rw [failed]
    simp
  · rw [decoded j other]
    simp [Fin.val_ne_of_ne other.symm]
  · rw [failed, setError_bit]
    simp
  · rw [decoded j other, setError_bit]
    simp [other.symm]

/-- The block of zero data, whose every checksum is that of two zero bytes. -/
theorem blockOf_zeros :
    blockOf (Vector.replicate 10 0#32) = Vector.ofFn fun k => if k.val % 3 = 2 then 0x81#8 else 0#8 := by
  decide +kernel

/-- Settles O25: zero data is the correct block of ten zeros; byte 11 is the checksum of word B of group 1. -/
theorem corruptedChecksumSpoilsOneField : Obligations.CorruptedChecksumSpoilsOneField := by
  refine ⟨fun prior => ?_, fun prior r k wrong => ⟨decodeBlock_setGroupByte_checksum prior r 1 k wrong, by decide⟩⟩
  rw [← blockOf_zeros]
  exact everyPatternIsStoredBitExactly prior _

end Sys2Proof.Machine
end

section
/-!
The session operations of `spec/43_session.md`: how the data-ready query of POLL and READ ends (R127), and which fields are
fresh after READ (R129).
-/
namespace Sys2Proof.Machine

/-! The data-ready query. -/

/-- A write whose missing acknowledgement is written down. -/
theorem State.busWrite_unacknowledged {s : State} {rest : List Reply} (answers : s.answers = .failed :: rest)
    (frame : List Byte) (f g : State → State) :
    s.busWrite frame f g = g ({ s with answers := rest }.emit (.write frame .noAck)) := by
  rw [State.busWrite_failed (State.reply_cons answers), State.takeReply_cons answers]

/-- A read whose failure is written down. -/
theorem State.busRead_unanswered {s : State} {rest : List Reply} (answers : s.answers = .failed :: rest) (n : Nat)
    (f : Vector Byte n → State → State) (g : State → State) :
    s.busRead n f g = g ({ s with answers := rest }.emit (.read n .fail)) := by
  rw [State.busRead_failed (State.reply_cons answers), State.takeReply_cons answers]

/-- The query (R127) where the write is not acknowledged: no wait, no read. -/
theorem drdyQuery_of_noAck {s : State} {rest : List Reply} (answers : s.answers = .failed :: rest)
    (k : Word → State → State) :
    drdyQuery s k = { s with
      answers := rest, result := some (.error .busAckError)
      events := s.events ++ [.write [0x02, 0x02] .noAck] } := by
  obtain ⟨-, frame, -⟩ := frame_bytes
  unfold drdyQuery
  rw [frame, State.busWrite_unacknowledged answers]
  rfl

/-- The query (R127) where the write is acknowledged, the wait returns and the read fails. -/
theorem drdyQuery_of_readFail {s : State} {rest : List Reply} (waits : WaitAnswer.never ∉ s.waits.take 1)
    (answers : s.answers = .ok :: .failed :: rest) (k : Word → State → State) :
    drdyQuery s k = { s with
      answers := rest, waits := s.waits.tail, result := some (.error .busReadError)
      events := s.events ++ [.write [0x02, 0x02] .ok, .wait .poll, .read 2 .fail] } := by
  obtain ⟨-, frame, -⟩ := frame_bytes
  unfold drdyQuery
  rw [frame, State.busWrite_answered answers, State.wait_returns, State.busRead_unanswered (rest := rest)]
  · simp [State.emit, State.takeWait, State.raise]
  · rfl
  · exact head_returns waits

/-- What POLL (R126) and READ (R128) each do with the value of their query. -/
def useDrdy (i : Instr) (v : Word) (s : State) : State :=
  if i = .poll then s.deliver (.ready (isReady v))
  else if v = drdyTrue then readMeasurement s
  else s.raise .notReadyError

/-- POLL and READ are the query and this use of its value. -/
theorem exec_eq_drdyQuery {i : Instr} (queries : i = .poll ∨ i = .read) (s : State) :
    exec i s = .next (drdyQuery s.start (useDrdy i)) := by
  obtain rfl | rfl := queries
  · rfl
  · simp only [exec, execRead, isReady, beq_iff_eq]
    rfl

/-- Settles O30: the query's three ends, one by one. -/
theorem drdyQueryRaisesTheFirstFailure : Obligations.DrdyQueryRaisesTheFirstFailure := by
  intro s i rest queries
  rw [exec_eq_drdyQuery queries, List.drop_one]
  refine ⟨fun answers => ?_, fun waits => ⟨fun answers => ?_, fun b0 b1 more answers rx => ?_⟩⟩
  · rw [drdyQuery_of_noAck (s := s.start) answers]
    rfl
  · rw [drdyQuery_of_readFail (s := s.start) waits answers]
    rfl
  · rw [drdyQuery_of_answered (s := s.start) waits answers rx]
    rfl

/-! What READ leaves in MR. -/

/-- A field is stale where its bit of the mask is set, and else the block's (R112, R129). -/
theorem decodeBlock_stale_or_fresh (prior : Record) (buf : Block) (i : Fin 10) :
    if (decodeBlock prior buf).2.getLsbD i.val then (decodeBlock prior buf).1[i] = prior[i]
    else decodeGroup buf i = some (decodeBlock prior buf).1[i] := by
  rw [decodeBlock_field, decodeBlock_mask]
  cases decodeGroup buf i <;> simp

/-- Settles O37: the run that decodes is READ's only one that writes MR, and its result goes by the mask. -/
theorem freshnessAfterRead : Obligations.FreshnessAfterRead := by
  intro s t h
  obtain ⟨new, res, busy, mr, session, rail, after, ran⟩ := ran_of_exec h
  rw [after.result]
  cases ran
  case decoded q =>
    have last : t.events.getLast? = some (.read 60 (.ok q.toList)) := by simp [after.events]
    have field := decodeBlock_stale_or_fresh s.mr q
    rw [← after.mr] at field
    by_cases whole : (decodeBlock s.mr q).2 = 0
    · rw [readResult, if_pos whole]
      exact ⟨q, last, fun i => by simpa [whole] using field i⟩
    · rw [readResult, if_neg whole]
      exact ⟨q, last, field⟩
  case frame row => simp at row
  all_goals exact after.mr

end Sys2Proof.Machine
end

section
/-!
The error kinds of `spec/60_exceptions.md` section 1: in which run each is raised (R140 to R147), and that nothing follows a
failed transfer but what R153 allows.
-/
namespace Sys2Proof.Machine

section Errors

variable {s t : State} {i : Instr} {new : List Event} {res : Option Result} {busy : Option Pending} {mr : Record}
  {session : Session} {rail : Bool}

/-- The events a run adds are determined by the two states. -/
theorem After.new_unique {new' : List Event} (h : After s t new res busy mr session rail)
    (h' : t.events = s.events ++ new') : new' = new :=
  List.append_cancel_left (h'.symm.trans h.events)

/-! The runs that end in an error. -/

/-- Each way an instruction can end in an error: the events it adds, the error, and the MR it leaves. -/
inductive Failed (s : State) : Instr → List Event → ErrorKind → Record → Prop where
  | badWord (w0 w1 w2 : Byte) (h : Machine.crc8 [w0, w1] ≠ w2) : Failed s (.prsword w0 w1 w2) [] .checksumError s.mr
  | startNoAck (query : List Event) (h : QueryEnded query) :
    Failed s .init ([.railOn, .wait .settle] ++ query ++ [.write [0x00, 0x10, 0x03, 0x00, 0xAC] .noAck]) .initFailure s.mr
  | drdyNoAck (i : Instr) (h : i = .poll ∨ i = .read) : Failed s i [.write [0x02, 0x02] .noAck] .busAckError s.mr
  | drdyFailed (i : Instr) (h : i = .poll ∨ i = .read) :
    Failed s i [.write [0x02, 0x02] .ok, .wait .poll, .read 2 .fail] .busReadError s.mr
  | notReady (b0 b1 : Byte) (h : be16 b0 b1 ≠ 0x0001) :
    Failed s .read [.write [0x02, 0x02] .ok, .wait .poll, .read 2 (.ok [b0, b1])] .notReadyError s.mr
  | readNoAck :
    Failed s .read [.write [0x02, 0x02] .ok, .wait .poll, .read 2 (.ok [0x00, 0x01]), .write [0x03, 0x00] .noAck]
      .busAckError s.mr
  | readFailed :
    Failed s .read [.write [0x02, 0x02] .ok, .wait .poll, .read 2 (.ok [0x00, 0x01]), .write [0x03, 0x00] .ok,
      .wait .read, .read 60 .fail] .busReadError s.mr
  | partialRead (q : Block) (h : (decodeBlock s.mr q).2 ≠ 0) :
    Failed s .read [.write [0x02, 0x02] .ok, .wait .poll, .read 2 (.ok [0x00, 0x01]), .write [0x03, 0x00] .ok,
      .wait .read, .read 60 (.ok q.toList)]
      (.partialReadError (decodeBlock s.mr q).2 (decodeBlock s.mr q).1) (decodeBlock s.mr q).1
  | stopNoAck : Failed s .deinit [.write [0x01, 0x04] .noAck, .wait .stop, .railOff] .busAckError s.mr

/-- There is no other way to end in an error; READ on a decoded block does by the mask (R128 step 10). -/
theorem Ran.failed {e : ErrorKind} (h : Ran s i new res busy mr session rail) (hres : res = some (.error e)) :
    Failed s i new e mr := by
  cases h
  case decoded q =>
    by_cases whole : (decodeBlock s.mr q).2 = 0
    · simp [readResult, whole] at hres
    · rw [readResult, if_neg whole] at hres
      cases hres
      exact .partialRead q whole
  all_goals cases hres
  case badWord w0 w1 w2 mismatch => exact .badWord w0 w1 w2 mismatch
  case initFailed query hq => exact .startNoAck query hq
  case drdyNoAck queries => exact .drdyNoAck i queries
  case drdyFailed queries => exact .drdyFailed i queries
  case notReady b0 b1 hv => exact .notReady b0 b1 hv
  case readNoAck => exact .readNoAck
  case readFailed => exact .readFailed
  case deinitNoAck => exact .stopNoAck

/-! Which event decides the error. -/

/-- INIT whose start frame is not acknowledged ends in InitFailure (R146). -/
theorem Ran.initFailure_of_start_noAck (h : Ran s .init new res busy mr session rail)
    (noAck : Event.write [0x00, 0x10, 0x03, 0x00, 0xAC] .noAck ∈ new) : res = some (.error .initFailure) := by
  cases h
  case initFailed => rfl
  case initOk query hq | initHangsStart query hq _ => cases hq <;> simp at noAck
  case initHangsSettle | initHangsQuery | initHangsFwver | initHangsVersion => simp at noAck
  case frame h | drdyNoAck h | drdyHangs h | drdyFailed h | drdyHangsWaiting h | drdyHangsReading h => simp at h

/-- The error that a failed transfer means in POLL and READ (R127, R128). -/
def transferError : Event → Option ErrorKind
  | .write _ .noAck => some .busAckError
  | .read _ .fail => some .busReadError
  | _ => none

/-- POLL or READ whose last event is a failed transfer ends in the error that transfer means (R141, R142). -/
theorem Ran.error_of_failed_transfer (h : Ran s i new res busy mr session rail) (queries : i = .poll ∨ i = .read)
    {event : Event} {e : ErrorKind} (last : new.getLast? = some event) (means : transferError event = some e) :
    res = some (.error e) := by
  cases h
  case drdyNoAck | drdyFailed | readNoAck | readFailed =>
    cases last
    cases means
    rfl
  case drdyHangsWaiting | drdyHangsReading | polled | notReady | readHangs | readHangsWaiting | readHangsReading | decoded =>
    cases last
    cases means
  case frame | crc8 | bldcmd | bldarg | word | badWord | decblk | drdyHangs | deinitHangs => cases last
  all_goals simp at queries

/-- READ whose last event is a data-ready value other than 1 ends in NotReadyError (R145). -/
theorem Ran.notReadyError_of_value (h : Ran s .read new res busy mr session rail) {b0 b1 : Byte}
    (notOne : be16 b0 b1 ≠ 0x0001) (last : new.getLast? = some (.read 2 (.ok [b0, b1]))) :
    res = some (.error .notReadyError) := by
  cases h
  case notReady => rfl
  case readHangs =>
    cases last
    exact absurd rfl notOne
  all_goals cases last

/-- DEINIT that got through its clean-up after an unacknowledged stop command reports it (R130, decision D14). -/
theorem Ran.busAckError_of_stop_noAck
    (h : Ran s .deinit [.write [0x01, 0x04] .noAck, .wait .stop, .railOff] res busy mr session rail) :
    res = some (.error .busAckError) := by
  cases h
  rfl

/-! What follows a failed transfer (R153). -/

/-- In a run of i, the second event may come after the first: after an unacknowledged write no read does, and a wait does
only in DEINIT. -/
def MayFollow (i : Instr) : Event → Event → Prop
  | .write _ .noAck, .read _ _ => False
  | .write _ .noAck, .wait _ => i = .deinit
  | _, _ => True

theorem Ran.pairwise_mayFollow (h : Ran s i new res busy mr session rail) : new.Pairwise (MayFollow i) := by
  cases h
  case initOk query hq | initFailed query hq | initHangsStart query hq _ => cases hq <;> simp [MayFollow]
  case deinitHangsWaiting => exact List.pairwise_singleton _ _
  all_goals simp [MayFollow]

/-- MR is written only after a successful read of a block, or by DECBLK, which reads nothing. -/
theorem Ran.mr_of_failed_read {n : Nat} (h : Ran s i new res busy mr session rail) (fail : Event.read n .fail ∈ new) :
    mr = s.mr := by
  cases h
  case decblk | decoded => simp at fail
  all_goals rfl

end Errors

/-- Settles O29: of the failing runs only INIT's unacknowledged start frame gives InitFailure, and INIT always adds an
event, so that the last one is its own. -/
theorem initFailureMeansStartNotAcknowledged : Obligations.InitFailureMeansStartNotAcknowledged := by
  intro i s t h
  obtain ⟨new, res, busy, mr, session, rail, after, ran⟩ := ran_of_exec h
  rw [after.result, after.session, after.events]
  refine ⟨⟨fun hres => ?_, ?_⟩, fun hres => ?_⟩
  · cases ran.failed hres
    exact ⟨rfl, by rw [← List.append_assoc, List.getLast?_concat]⟩
  · rintro ⟨rfl, last⟩
    obtain ⟨-, -, rest, rfl, -⟩ := ran.control_of_init
    rw [List.getLast?_append_cons] at last
    exact ran.initFailure_of_start_noAck (List.mem_of_getLast? last)
  · cases ran.failed hres
    simp [ran.control_of_init, hres]

/-- Settles O35: of the failing runs only READ's on a value other than 1 gives NotReadyError, and its one write is the
query's. -/
theorem notReadyMeansNoReadCommand : Obligations.NotReadyMeansNoReadCommand := by
  intro i s t h
  obtain ⟨new, res, busy, mr, session, rail, after, ran⟩ := ran_of_exec h
  rw [after.result]
  refine ⟨⟨fun hres => ?_, ?_⟩, fun hres new' answer h' => ?_⟩
  · cases ran.failed hres
    case notReady b0 b1 notOne => exact ⟨rfl, b0, b1, _, notOne, after.events, rfl⟩
  · rintro ⟨rfl, b0, b1, new', notOne, h', last⟩
    obtain rfl := after.new_unique h'
    exact ran.notReadyError_of_value notOne last
  · obtain rfl := after.new_unique h'
    cases ran.failed hres
    simp

/-- Settles O36: of the failing runs only READ's on a decoded block writes MR. -/
theorem partialReadIsTheOnlyErrorThatUpdatesMr : Obligations.PartialReadIsTheOnlyErrorThatUpdatesMr := by
  intro i s t e h hres
  obtain ⟨new, res, busy, mr, session, rail, after, ran⟩ := ran_of_exec h
  rw [after.result] at hres
  cases ran.failed hres
  case partialRead q masked => exact ⟨rfl, masked, after.mr, q, by simp [after.events], rfl, rfl⟩
  all_goals exact after.mr

/-- Settles O40: of the failing runs only PRSWORD's gives ChecksumError, and none gives DecodeError. -/
theorem checksumErrorComesOnlyFromPrsword : Obligations.ChecksumErrorComesOnlyFromPrsword := by
  intro i s t h
  obtain ⟨new, res, busy, mr, session, rail, after, ran⟩ := ran_of_exec h
  rw [after.result]
  refine ⟨⟨fun hres => ?_, ?_⟩, fun f hres => nomatch ran.failed hres⟩
  · cases ran.failed hres
    case badWord w0 w1 w2 mismatch => exact ⟨w0, w1, w2, rfl, mismatch⟩
  · rintro ⟨w0, w1, w2, rfl, mismatch⟩
    rw [exec_prsword, if_neg (Ne.symm mismatch)] at h
    cases h
    exact after.result.symm

/-- Settles O41: the failing runs with a bus error end with the transfer it reports, DEINIT's after its clean-up, and
conversely such a transfer decides the error. -/
theorem busErrorsReportTheirTransfer : Obligations.BusErrorsReportTheirTransfer := by
  intro i s t h
  obtain ⟨new, res, busy, mr, session, rail, after, ran⟩ := ran_of_exec h
  rw [after.result, after.mr]
  refine ⟨⟨fun hres => ⟨new, after.events, ?_⟩, ?_⟩, ⟨fun hres => ⟨new, after.events, ?_⟩, ?_⟩, fun hres => ?_, ?_⟩
  · cases ran.failed hres
    case drdyNoAck queries => obtain rfl | rfl := queries <;> simp
    case readNoAck | stopNoAck => simp
  · rintro ⟨new', h', ends⟩
    obtain rfl := after.new_unique h'
    obtain ⟨rfl, last⟩ | ⟨rfl, last | last⟩ | ⟨rfl, rfl⟩ := ends
    · exact ran.error_of_failed_transfer (.inl rfl) last rfl
    · exact ran.error_of_failed_transfer (.inr rfl) last rfl
    · exact ran.error_of_failed_transfer (.inr rfl) last rfl
    · exact ran.busAckError_of_stop_noAck
  · cases ran.failed hres
    case drdyFailed queries => obtain rfl | rfl := queries <;> simp
    case readFailed => simp
  · rintro ⟨new', h', ends⟩
    obtain rfl := after.new_unique h'
    obtain ⟨rfl, last⟩ | ⟨rfl, last | last⟩ := ends <;> exact ran.error_of_failed_transfer (by simp) last rfl
  · cases ran.failed hres <;> rfl
  · rintro new' h' rfl noAck
    obtain rfl := after.new_unique h'
    exact ran.initFailure_of_start_noAck noAck

/-- Settles O42: what may follow a failed write holds of every pair of events a run adds, and the runs that write MR have no
failed read. -/
theorem failedTransferIsNotInterpreted : Obligations.FailedTransferIsNotInterpreted := by
  intro i s t new' h h'
  obtain ⟨new, res, busy, mr, session, rail, after, ran⟩ := ran_of_exec h
  obtain rfl := after.new_unique h'
  refine ⟨?_, fun n fail => after.mr.trans (ran.mr_of_failed_read fail)⟩
  rintro pre frame post rfl
  obtain ⟨-, pairs, -⟩ := List.pairwise_append.mp ran.pairwise_mayFollow
  have follows : ∀ e ∈ post, MayFollow i (.write frame .noAck) e := (List.pairwise_cons.mp pairs).1
  exact ⟨fun n answer mem => follows _ mem, fun notDeinit w mem => notDeinit (follows _ mem)⟩

end Sys2Proof.Machine
end

section
/-!
Progress (`spec/70_reset_and_hazards.md` R175): an operation ends when everything it waits for returns, and its calls
and waits are among those its rules list, each taken once at most (R122).
-/
namespace Sys2Proof.Machine

open Sys2Proof.Safety

/-- Settles O48: where everything returns, no run is stuck, and the inputs that are left still return. -/
theorem everyOperationEndsWhenTheTransportReturns : Obligations.EveryOperationEndsWhenTheTransportReturns := by
  intro i s returns
  obtain ⟨t, new, res, busy, mr, session, rail, h, after, ran⟩ := exec_ran i s
  obtain ⟨hasResult, notStuck⟩ := ran_returns ran returns
  exact ⟨t, h, by rwa [after.result], ⟨after.requests, after.inProgress.trans notStuck⟩, after.returns returns⟩

/-! The calls and waits of an operation. -/

/-- The call or the wait that an event ends; switching the rail is neither. -/
def callOrWait : Event → Option Pending
  | .write frame _ => some (.call (.write frame))
  | .read n _ => some (.call (.read n))
  | .wait w => some (.wait w)
  | .railOn => none
  | .railOff => none

/-- The calls and waits an operation makes when nothing fails, in the order of its steps (R124 to R128, R130). -/
def plan : Instr → List Pending
  | .init => [.wait .settle, .call (.write [0xD1, 0x00]), .wait .fwver, .call (.read 3),
      .call (.write [0x00, 0x10, 0x03, 0x00, 0xAC])]
  | .poll => [.call (.write [0x02, 0x02]), .wait .poll, .call (.read 2)]
  | .read => [.call (.write [0x02, 0x02]), .wait .poll, .call (.read 2),
      .call (.write [0x03, 0x00]), .wait .read, .call (.read 60)]
  | .deinit => [.call (.write [0x01, 0x04]), .wait .stop]
  | _ => []

theorem plan_nodup (i : Instr) : (plan i).Nodup := by
  cases i with
  | init | poll | read | deinit => decide
  | _ => exact List.nodup_nil

section Plan

variable {s : State} {i : Instr} {new : List Event} {res : Option Result} {busy : Option Pending} {mr : Record}
  {session : Session} {rail : Bool}

/-- A failure or an endless step only leaves out some of the plan. -/
theorem Ran.sublist_plan (h : Ran s i new res busy mr session rail) : (new.filterMap callOrWait).Sublist (plan i) := by
  cases h
  case crc8 | bldcmd | bldarg | word | badWord | decblk | frame => exact List.nil_sublist _
  case initOk query hq | initFailed query hq | initHangsStart query hq _ =>
    cases hq <;> simp [List.filterMap_cons, callOrWait, plan]
  case initHangsSettle | initHangsQuery | initHangsFwver | initHangsVersion =>
    simp [List.filterMap_cons, callOrWait, plan]
  case drdyNoAck queries | drdyHangs queries | drdyFailed queries | drdyHangsWaiting queries | drdyHangsReading queries =>
    obtain rfl | rfl := queries <;> simp [callOrWait, plan]
  case polled | notReady | readNoAck | readHangs | readFailed | readHangsWaiting | readHangsReading | decoded =>
    simp [callOrWait, plan]
  case deinitOk | deinitNoAck | deinitHangsWaiting | deinitHangs => simp [callOrWait, plan]

/-- So a run has at most as many events of a kind as the plan has steps of that kind. -/
theorem Ran.countP_le_plan (h : Ran s i new res busy mr session rail) {p : Event → Bool} {q : Pending → Bool}
    (kind : ∀ e, p e = ((callOrWait e).map q).getD false) : new.countP p ≤ (plan i).countP q := by
  rw [funext kind, ← List.countP_filterMap]
  exact h.sublist_plan.countP_le

/-- No run writes a frame twice: the plan has it once at most. -/
theorem Ran.no_frame_twice (h : Ran s i new res busy mr session rail) (frame : List Byte) (a b : WriteAnswer)
    (pre mid post : List Event) : new ≠ pre ++ .write frame a :: mid ++ .write frame b :: post := by
  rintro rfl
  have once := (plan_nodup i).sublist h.sublist_plan
  simp [callOrWait, List.nodup_append] at once

end Plan

/-! The three kinds of steps that R175 bounds. -/

def Pending.isWrite : Pending → Bool
  | .call (.write _) => true
  | _ => false

def Pending.isRead : Pending → Bool
  | .call (.read _) => true
  | _ => false

def Pending.isWait : Pending → Bool
  | .wait _ => true
  | _ => false

/-- Settles O50: the plan bounds the events of each kind, and its steps are counted. -/
theorem operationsMakeBoundedTransfers : Obligations.OperationsMakeBoundedTransfers := by
  intro i s t new' h h' writes reads waits
  obtain ⟨new, res, busy, mr, session, rail, after, ran⟩ := ran_of_exec h
  obtain rfl := after.new_unique h'
  have hw : writes ≤ (plan i).countP Pending.isWrite := ran.countP_le_plan (by rintro ⟨⟩ <;> rfl)
  have hr : reads ≤ (plan i).countP Pending.isRead := ran.countP_le_plan (by rintro ⟨⟩ <;> rfl)
  have hwait : waits ≤ (plan i).countP Pending.isWait := ran.countP_le_plan (by rintro ⟨⟩ <;> rfl)
  refine ⟨?_, ?_, ?_, ?_, ran.no_frame_twice⟩
  · rintro rfl; exact ⟨hw, hr, hwait⟩
  · rintro rfl; exact ⟨hw, hr, hwait⟩
  · rintro rfl; exact ⟨hw, hr, hwait⟩
  · rintro rfl; exact ⟨hw, Nat.le_zero.mp hr, hwait⟩

end Sys2Proof.Machine
end

section
/-!
The host port (`spec/30_encoding.md` R80, R81, R84, R60, R61, R70 to R75): everything the decoder answers to a request, and
that it and the encoder are inverse.
-/
namespace Sys2Proof

open Machine

/-! Frames of the command map. -/

theorem decodeFrame_bytes16 {cmd : Word} {i : Instr} (row : decodeCommand cmd = some i) :
    decodeFrame (bytes16 cmd) = .ok i := by
  simp [decodeFrame, bytes16, row]

theorem decodeFrame_start (arg : Word) (chk : Byte) :
    decodeFrame (bytes16 wordStart ++ bytes16 arg ++ [chk]) = .ok (.cmdStart arg chk) := by
  simp [decodeFrame, bytes16]

/-- The five command words without an argument are distinct, so each names its row. -/
theorem encode_of_decodeCommand {cmd : Word} {i : Instr} (row : decodeCommand cmd = some i) :
    encode i = .frame (bytes16 cmd) := by
  unfold decodeCommand at row
  split_ifs at row with drdy read stop reset fwver <;> cases row
  · rw [drdy]; rfl
  · rw [read]; rfl
  · rw [stop]; rfl
  · rw [reset]; rfl
  · rw [fwver]; rfl

theorem encode_of_decodeFrame {bytes : List Byte} {i : Instr} (accepted : decodeFrame bytes = .ok i) :
    encode i = .frame bytes := by
  unfold decodeFrame at accepted
  split at accepted
  case h_1 c1 c0 =>
    split at accepted <;> cases accepted
    rename_i row
    rw [encode_of_decodeCommand row, bytes16_be16]
  case h_2 c1 c0 a1 a0 k =>
    split_ifs at accepted with start
    cases accepted
    simp [encode, ← start]
  case h_3 => cases accepted

/-! Selection of a host operation. -/

/-- Everything the decoder answers to a selection (R80, R81, R84): the one instruction it encodes, no operand of the
selected operation, or a code that selects nothing. -/
theorem decodeOperation_cases (c : BitVec 4) (operands : List Byte) :
    (∃ i, decodeOperation c operands = .ok i ∧ encode i = .operation c operands) ∨
    decodeOperation c operands = .error (.notAnOperand c) ∨
    (c ∈ [0x5#4, 0x6#4, 0x7#4, 0xC#4, 0xD#4, 0xE#4, 0xF#4] ∧
      decodeOperation c operands = .error (.reservedOpsel c)) := by
  have code {n : Nat} (h : c.toNat = n) : c = BitVec.ofNat 4 n := by rw [← h, BitVec.ofNat_toNat, BitVec.setWidth_eq]
  unfold decodeOperation
  split
  case h_1 h => exact .inl ⟨_, rfl, by rw [code h]; rfl⟩
  case h_2 h =>
    split
    · exact .inl ⟨_, rfl, by rw [code h]; simp [encode]⟩
    · exact .inr (.inl rfl)
  case h_3 h =>
    split
    · exact .inl ⟨_, rfl, by rw [code h]; simp [encode]⟩
    · exact .inr (.inl rfl)
  case h_4 h =>
    split
    · exact .inl ⟨_, rfl, by rw [code h]; rfl⟩
    · exact .inr (.inl rfl)
  case h_5 h =>
    split
    · exact .inl ⟨_, rfl, by rw [code h]; rfl⟩
    · exact .inr (.inl rfl)
  case h_6 h | h_7 h | h_8 h | h_9 h =>
    split_ifs with empty
    · exact .inl ⟨_, rfl, by rw [code h, empty]; rfl⟩
    · exact .inr (.inl rfl)
  case h_10 =>
    refine .inr (.inr ⟨?_, rfl⟩)
    clear code
    revert c
    decide

/-- Settles O1: each operand comes back from its bytes, and each row of the command map from its word. -/
theorem encodedInstructionDecodesBack : Obligations.EncodedInstructionDecodesBack := by
  intro i
  cases i with
  | crc8 | prsword | init | poll | read | deinit => rfl
  | bldcmd | bldarg => simp [decode, encode, decodeOperation, bytes16]
  | decblk buf => simp [decode, encode, decodeOperation, Vector.toList]
  | cmdStart arg chk => exact decodeFrame_start arg chk
  | cmdDrdy => exact decodeFrame_bytes16 (cmd := wordDrdy) rfl
  | cmdRead => exact decodeFrame_bytes16 (cmd := wordRead) rfl
  | cmdStop => exact decodeFrame_bytes16 (cmd := wordStop) rfl
  | cmdReset => exact decodeFrame_bytes16 (cmd := wordReset) rfl
  | cmdFwver => exact decodeFrame_bytes16 (cmd := wordFwver) rfl

/-- Settles O2: a selection by the decoder's cases, a frame by the rows of the command map. -/
theorem acceptedRequestIsItsEncoding : Obligations.AcceptedRequestIsItsEncoding := by
  intro r i accepted
  cases r with
  | operation c operands =>
    obtain ⟨j, decoded, encoded⟩ | refused | ⟨-, refused⟩ := decodeOperation_cases c operands
    · cases decoded.symm.trans accepted
      exact encoded
    · cases refused.symm.trans accepted
    · cases refused.symm.trans accepted
  | frame bytes => exact encode_of_decodeFrame accepted

/-- R80: the form of a selection, for every instruction that has one. -/
theorem encode_selection (i : Instr) : Laws.Selection.Statement i := by
  cases i with
  | crc8 bytes => exact Laws.Selection.crc8 bytes
  | bldcmd cmd => exact Laws.Selection.bldcmd cmd
  | bldarg cmd arg => exact Laws.Selection.bldarg cmd arg
  | prsword w0 w1 w2 => exact Laws.Selection.prsword w0 w1 w2
  | decblk buf => exact Laws.Selection.decblk buf
  | init => exact Laws.Selection.init
  | poll => exact Laws.Selection.poll
  | read => exact Laws.Selection.read
  | deinit => exact Laws.Selection.deinit
  | cmdStart arg chk => exact Laws.Selection.cmdStart arg chk
  | cmdDrdy => exact Laws.Selection.cmdDrdy
  | cmdRead => exact Laws.Selection.cmdRead
  | cmdStop => exact Laws.Selection.cmdStop
  | cmdReset => exact Laws.Selection.cmdReset
  | cmdFwver => exact Laws.Selection.cmdFwver

/-- R84, R116: an accepted selection has operands of the fixed length, so that one with others is refused. -/
theorem decodeOperation_of_wrong_length {c : BitVec 4} {operands : List Byte}
    (selects : c ∈ [0x1#4, 0x2#4, 0x3#4, 0x4#4, 0x8#4, 0x9#4, 0xA#4, 0xB#4])
    (wrong : operands.length ≠ operandCount c) : decodeOperation c operands = .error (.notAnOperand c) := by
  have disjoint : ∀ c ∈ [0x1#4, 0x2#4, 0x3#4, 0x4#4, 0x8#4, 0x9#4, 0xA#4, 0xB#4],
      c ∉ [0x5#4, 0x6#4, 0x7#4, 0xC#4, 0xD#4, 0xE#4, 0xF#4] := by decide
  obtain ⟨i, -, encoded⟩ | refused | ⟨reserved, -⟩ := decodeOperation_cases c operands
  · obtain ⟨-, rfl | right⟩ := encode_selection i c operands encoded
    · exact absurd selects (by decide)
    · exact absurd right wrong
  · exact refused
  · exact absurd reserved (disjoint c selects)

/-- Settles O3: the decoder computes on each word. -/
theorem tableWordsDecodeToTheirRows : Obligations.TableWordsDecodeToTheirRows :=
  ⟨rfl, rfl, rfl, rfl, ⟨_, rfl⟩, rfl, rfl, rfl, rfl, rfl, rfl, rfl, rfl, rfl, rfl, rfl, rfl⟩

/-! What a step makes of a request. -/

namespace Machine

theorem step_of_decoded {s : State} {r : Request} {rest : List Request} {i : Instr} (requests : s.requests = r :: rest)
    (idle : s.inProgress = none) (decoded : decode r = .ok i) : step s = exec i { s with requests := rest } := by
  simp only [step, requests, idle, decoded]

theorem step_of_undecodable {s : State} {r : Request} {rest : List Request} {why : Reject}
    (requests : s.requests = r :: rest) (idle : s.inProgress = none) (rejected : decode r = .error why) :
    step s = .refused (.undecodable why) := by
  simp only [step, requests, idle, rejected]

theorem step_of_busy {s : State} {r : Request} {rest : List Request} {p : Pending} (requests : s.requests = r :: rest)
    (busy : s.inProgress = some p) : step s = .refused .operationInProgress := by
  simp only [step, requests, busy]

theorem step_of_nothing_presented {s : State} (requests : s.requests = []) : step s = .next s := by
  simp only [step, requests]

/-- Settles O4: the decoder refuses these codes whatever the operands are. -/
theorem reservedSelectionIsRefused : Obligations.ReservedSelectionIsRefused := by
  intro s c operands rest reserved requests idle
  refine step_of_undecodable requests idle ?_
  simp only [List.mem_cons, List.not_mem_nil, or_false] at reserved
  obtain rfl | rfl | rfl | rfl | rfl | rfl | rfl := reserved <;> rfl

/-- Settles O5: the decoder refuses the operands, and the step the request. -/
theorem wrongOperandLengthIsRefused : Obligations.WrongOperandLengthIsRefused :=
  fun _ _ _ _ selects wrong requests idle =>
    step_of_undecodable requests idle (decodeOperation_of_wrong_length selects wrong)

/-- Settles O6: the rule of a step itself. -/
theorem stepRunsTheDecodedInstruction : Obligations.StepRunsTheDecodedInstruction :=
  fun _ _ _ _ => step_of_decoded

/-- Settles O7: two of the rules of a step. -/
theorem busyBlockRefusesOperations : Obligations.BusyBlockRefusesOperations :=
  ⟨fun _ _ _ _ => step_of_busy, fun _ => step_of_nothing_presented⟩

end Machine
end Sys2Proof
end

section
/-!
Addresses, frames and fields (`spec/20_memory.md` R51, `spec/41_frame.md`, `spec/10_state.md` R23, R30): what the block hands
over to the transport and to the host.
-/
namespace Sys2Proof.Machine

/-- Settles O11: the reset state is written out with these values. -/
theorem resetRailRegistersAndEvents : Obligations.ResetRailRegistersAndEvents :=
  ⟨rfl, fun i => Vector.getElem_ofFn i.isLt, rfl, rfl⟩

/-- R51: the upper seven bits are DEV_ADDR7. -/
theorem extractLsb'_devAddr8 : devAddr8.extractLsb' 1 7 = Config.devAddr7 := BitVec.extractLsb'_append_eq_left

/-- R51: bit 0 is clear. -/
theorem getLsbD_zero_devAddr8 : devAddr8.getLsbD 0 = false := BitVec.getLsbD_append (x := Config.devAddr7)

/-- Settles O9: the address is DEV_ADDR8. -/
theorem everyTransferAddressesTheDevice : Obligations.EveryTransferAddressesTheDevice :=
  ⟨devAddr8, extractLsb'_devAddr8, getLsbD_zero_devAddr8, fun _ _ => rfl, fun _ _ => rfl, rfl, rfl, fun _ => rfl⟩

/-- R67: the two bytes of a word have its value, the first the high one. -/
theorem hiByte_loByte_toNat (v : Word) : 256 * (hiByte v).toNat + (loByte v).toNat = v.toNat := by
  rw [← be16_toNat, be16_hiByte_loByte]

/-- Settles O17: the frame of a command is its two bytes. -/
theorem bldcmdDeliversTheCommandBigEndian : Obligations.BldcmdDeliversTheCommandBigEndian :=
  fun cmd _ => ⟨hiByte cmd, loByte cmd, rfl, hiByte_loByte_toNat cmd⟩

/-- Settles O18: command, argument and the checksum of the argument's two bytes. -/
theorem bldargAppendsTheArgumentChecksum : Obligations.BldargAppendsTheArgumentChecksum :=
  fun cmd arg _ => ⟨hiByte cmd, loByte cmd, hiByte arg, loByte arg, rfl, hiByte_loByte_toNat cmd,
    hiByte_loByte_toNat arg⟩

/-- Settles O23: the meaning of DECBLK itself. -/
theorem decblkDecodesIntoMr : Obligations.DecblkDecodesIntoMr := fun _ _ => rfl

theorem buildArg_wordStart (a1 a0 : Byte) : buildArg wordStart (be16 a1 a0) = [0x00, 0x10, a1, a0, crc8 [a1, a0]] := by
  rw [buildArg, bytes16_be16]
  rfl

/-- Settles O39: each row's frame is built from its command word; the start row's checksum is recomputed. -/
theorem commandRowsDeliverTheirFrames : Obligations.CommandRowsDeliverTheirFrames := by
  intro s
  refine ⟨fun a1 a0 k => ?_, by decide +kernel, rfl, rfl, rfl, rfl, rfl⟩
  rw [← buildArg_wordStart]
  rfl

/-- Settles O26: the list is the ten fields in order, filtered by the mask. -/
theorem decodeErrorsListTheFailedFields : Obligations.DecodeErrorsListTheFailedFields := by
  intro mask
  have ascending := List.pairwise_lt_finRange 10
  exact ⟨(List.finRange 10).filter fun i => mask.getLsbD i.val, rfl, ascending.filter _, fun i => by simp⟩

end Sys2Proof.Machine
end

section
/-!
What no instruction reads (`spec/10_state.md` R30, R32; `spec/43_session.md` R121): the control registers, and the results
and events of earlier operations; and what an instruction outside the session operations writes (R21, R83).
-/
namespace Sys2Proof.Machine

/-- Settles O44: the parts of every meaning ignore the control registers. -/
theorem sessionAndRailGateNothing : Obligations.SessionAndRailGateNothing :=
  fun _ _ _ v b h => exec_withControl h v b

/-- s with another past. -/
def State.withEvents (s : State) (past : List Event) : State := { s with events := past }

theorem State.takeReply_withEvents (s : State) (past : List Event) :
    (s.withEvents past).takeReply = s.takeReply.withEvents past := by
  unfold State.takeReply State.withEvents
  cases s.answers <;> rfl

theorem State.emit_withEvents (s : State) (past : List Event) (e : Event) :
    (s.withEvents past).emit e = (s.emit e).withEvents (past ++ [e]) := rfl

/-- From s, f only appends events, and whatever happened before, it appends the same ones and does the same to all the
rest of the state. -/
def AppendsAlike (f : State → State) (s : State) : Prop :=
  ∃ new, (f s).events = s.events ++ new ∧ ∀ past, f (s.withEvents past) = (f s).withEvents (past ++ new)

/-- The same from every state. -/
def IgnoresPast (f : State → State) : Prop := ∀ s, AppendsAlike f s

namespace IgnoresPast

variable {f g k : State → State}

/-- A part of an operation that adds no event. -/
theorem silent (same : ∀ s past, f (s.withEvents past) = (f s).withEvents past) (quiet : ∀ s, (f s).events = s.events) :
    IgnoresPast f :=
  fun s => ⟨[], by rw [quiet, List.append_nil], fun past => by rw [same, List.append_nil]⟩

theorem deliver (r : Value) : IgnoresPast (·.deliver r) := .silent (fun _ _ => rfl) fun _ => rfl
theorem raise (e : ErrorKind) : IgnoresPast (·.raise e) := .silent (fun _ _ => rfl) fun _ => rfl
theorem setSession (v : Session) : IgnoresPast (·.setSession v) := .silent (fun _ _ => rfl) fun _ => rfl
theorem hang (p : Pending) : IgnoresPast (·.hang p) := .silent (fun _ _ => rfl) fun _ => rfl
theorem takeReply : IgnoresPast State.takeReply := .silent State.takeReply_withEvents State.takeReply_events
theorem takeWait : IgnoresPast State.takeWait := .silent (fun _ _ => rfl) fun _ => rfl
theorem takeBytes (n : Nat) : IgnoresPast (·.takeBytes n) := .silent (fun _ _ => rfl) fun _ => rfl
theorem emit (e : Event) : IgnoresPast (·.emit e) := fun s => ⟨[e], rfl, fun past => s.emit_withEvents past e⟩
theorem setRail (b : Bool) : IgnoresPast (·.setRail b) := fun _ => ⟨_, rfl, fun _ => rfl⟩

/-- One part of an operation after another. -/
theorem comp (hg : IgnoresPast g) (hf : IgnoresPast f) : IgnoresPast fun s => g (f s) := by
  intro s
  obtain ⟨new, added, same⟩ := hf s
  obtain ⟨new', added', same'⟩ := hg (f s)
  exact ⟨new ++ new', by simp only [added', added, List.append_assoc],
    fun past => by simp only [same, same', List.append_assoc]⟩

/-- What f does from s, whatever happened before, g does too. -/
theorem congr {s : State} (hf : IgnoresPast f) (eq : ∀ past, g (s.withEvents past) = f (s.withEvents past)) :
    AppendsAlike g s := by
  obtain ⟨new, added, same⟩ := hf s
  have here : g s = f s := eq s.events
  exact ⟨new, here ▸ added, fun past => by rw [eq, here, same]⟩

theorem wait (w : WaitName) (hk : IgnoresPast k) : IgnoresPast (·.wait w k) := by
  intro s
  by_cases h : s.waits.head? = some .never
  · exact congr (.comp (.hang _) .takeWait) fun past => State.wait_never (s := s.withEvents past) h w k
  · exact congr (.comp hk (.comp (.emit _) .takeWait)) fun past => State.wait_returns (s := s.withEvents past) h w k

theorem busWrite (frame : List Byte) (hf : IgnoresPast f) (hg : IgnoresPast g) :
    IgnoresPast (·.busWrite frame f g) := by
  intro s
  cases h : s.reply
  case ok =>
    exact congr (.comp hf (.comp (.emit _) .takeReply)) fun past => State.busWrite_ok (s := s.withEvents past) h frame f g
  case failed =>
    exact congr (.comp hg (.comp (.emit _) .takeReply)) fun past =>
      State.busWrite_failed (s := s.withEvents past) h frame f g
  case never =>
    exact congr (.comp (.hang _) .takeReply) fun past => State.busWrite_never (s := s.withEvents past) h frame f g

theorem busRead {n : Nat} {f : Vector Byte n → State → State} (hf : ∀ q, IgnoresPast (f q)) (hg : IgnoresPast g) :
    IgnoresPast (·.busRead n f g) := by
  intro s
  cases h : s.reply
  case ok =>
    refine congr (.comp (hf (s.takeReply.received n)) (.comp (.emit (.read n (.ok (s.takeReply.received n).toList)))
      (.comp (.takeBytes n) .takeReply))) fun past => ?_
    have run := State.busRead_ok (s := s.withEvents past) h n f g
    rwa [State.takeReply_withEvents] at run ⊢
  case failed =>
    exact congr (.comp hg (.comp (.emit _) .takeReply)) fun past => State.busRead_failed (s := s.withEvents past) h n f g
  case never =>
    exact congr (.comp (.hang _) .takeReply) fun past => State.busRead_never (s := s.withEvents past) h n f g

theorem fwverQuery (hk : IgnoresPast k) : IgnoresPast (Machine.fwverQuery · k) :=
  .busWrite _ (.wait _ (.busRead (fun _ => hk) hk)) hk

theorem startMeasurement : IgnoresPast Machine.startMeasurement :=
  .busWrite _ (.comp (.deliver _) (.setSession _)) (.raise _)

theorem drdyQuery {k : Word → State → State} (hk : ∀ w, IgnoresPast (k w)) : IgnoresPast (Machine.drdyQuery · k) :=
  .busWrite _ (.wait _ (.busRead (fun _ => hk _) (.raise _))) (.raise _)

theorem finishRead (q : Block) : IgnoresPast (Machine.finishRead q) := by
  refine .silent (fun s past => ?_) fun s => ?_
  · have same : (s.withEvents past).mr = s.mr := rfl
    simp only [Machine.finishRead, same]
    split <;> rfl
  · simp only [Machine.finishRead]
    split <;> rfl

theorem readMeasurement : IgnoresPast Machine.readMeasurement :=
  .busWrite _ (.wait _ (.busRead .finishRead (.raise _))) (.raise _)

theorem shutDown {report : State → State} (h : IgnoresPast report) : IgnoresPast (Machine.shutDown · report) :=
  .wait _ (.comp h (.comp (.setSession _) (.setRail _)))

end IgnoresPast

/-- The meaning of every instruction: it clears the last result, and then ignores the past. -/
theorem exec_ignoresPast (i : Instr) : ∃ f, (∀ s, exec i s = .next (f s.start)) ∧ IgnoresPast f := by
  cases i with
  | crc8 | bldcmd | bldarg | cmdStart | cmdDrdy | cmdRead | cmdStop | cmdReset | cmdFwver =>
    exact ⟨_, fun _ => rfl, .deliver _⟩
  | prsword w0 w1 w2 =>
    refine ⟨fun s => match parseWord w0 w1 w2 with
      | some v => s.deliver (.word v)
      | none => s.raise .checksumError, fun _ => rfl, ?_⟩
    cases parseWord w0 w1 w2
    · exact .raise _
    · exact .deliver _
  | decblk buf =>
    exact ⟨fun s => (s.writeRecord (decodeBlock s.mr buf).1).deliver
      (.decoded (decodeBlock s.mr buf).1 (decodeBlock s.mr buf).2), fun _ => rfl, .silent (fun _ _ => rfl) fun _ => rfl⟩
  | init => exact ⟨_, fun _ => rfl, .comp (.wait _ (.fwverQuery .startMeasurement)) (.setRail _)⟩
  | poll => exact ⟨_, fun _ => rfl, .drdyQuery fun _ => .deliver _⟩
  | read =>
    refine ⟨_, fun _ => rfl, .drdyQuery fun v => ?_⟩
    cases isReady v
    · exact .raise _
    · exact .readMeasurement
  | deinit => exact ⟨_, fun _ => rfl, .busWrite _ (.shutDown (.deliver _)) (.shutDown (.raise _))⟩

/-- Settles O45: an operation clears the last result first, and the parts of its meaning ignore the past. -/
theorem pastResultsAndEventsInfluenceNothing : Obligations.PastResultsAndEventsInfluenceNothing := by
  intro i s t past r h
  obtain ⟨f, run, ignores⟩ := exec_ignoresPast i
  obtain ⟨new, added, same⟩ := ignores s.start
  cases (run s).symm.trans h
  refine ⟨new, added, ?_⟩
  rw [run]
  exact congrArg _ (same past)

/-! What the instructions write. -/

/-- Settles O46: two runs write MR, DECBLK's and READ's on a decoded block; each delivers the record. -/
theorem mrIsWrittenOnlyByDecode : Obligations.MrIsWrittenOnlyByDecode := by
  intro i s t h
  obtain ⟨new, res, busy, mr, session, rail, after, ran⟩ := ran_of_exec h
  rw [after.mr, after.result]
  cases ran
  case decblk q => exact .inr ⟨q, _, rfl, rfl, .inl ⟨rfl, rfl⟩⟩
  case decoded q =>
    refine .inr ⟨q, _, rfl, rfl, .inr ⟨rfl, by simp [after.events], ?_⟩⟩
    unfold readResult
    split
    · exact .inl rfl
    · exact .inr rfl
  all_goals exact .inl rfl

/-- An instruction other than the four session operations writes its result and, if it is DECBLK, MR. -/
theorem exec_of_pure {i : Instr} (notInit : i ≠ .init) (notPoll : i ≠ .poll) (notRead : i ≠ .read)
    (notDeinit : i ≠ .deinit) (s : State) : ∃ res mr, exec i s = .next { s with result := some res, mr := mr } ∧
      ((∀ buf, i ≠ .decblk buf) → mr = s.mr) := by
  cases i with
  | init | poll | read | deinit => contradiction
  | prsword w0 w1 w2 => exact ⟨_, s.mr, exec_prsword w0 w1 w2 s, fun _ => rfl⟩
  | decblk buf => exact ⟨_, _, rfl, fun h => absurd rfl (h buf)⟩
  | _ => exact ⟨_, s.mr, rfl, fun _ => rfl⟩

/-- Settles O47: the one next state of such an instruction is written out. -/
theorem pureOperationsProduceNoEvent : Obligations.PureOperationsProduceNoEvent := by
  intro i s t notInit notPoll notRead notDeinit h
  obtain ⟨res, mr, run, keeps⟩ := exec_of_pure notInit notPoll notRead notDeinit s
  cases run.symm.trans h
  exact ⟨rfl, nofun, keeps⟩

end Sys2Proof.Machine
end

section
/-!
The session operations of `spec/43_session.md` where the answers are written down: the exact next state of INIT (R124), POLL
and READ (R126, R128) and DEINIT (R130), with what follows when a call or a wait never returns (R175, U10). In a rewrite
`by exact h` puts h off until the state it speaks of is found in the goal.
-/
namespace Sys2Proof.Machine

open Sys2Proof.Safety

/-- The waits left after two, as the statements write them. -/
@[simp] theorem tail_tail_eq_drop_two (ws : List WaitAnswer) : ws.tail.tail = ws.drop 2 := by
  rw [← List.drop_one, ← List.drop_one, List.drop_drop]

/-! A command, its wait and its response. -/

/-- A write that is written down as never answered. -/
theorem State.busWrite_unending {s : State} {rest : List Reply} (answers : s.answers = .never :: rest)
    (frame : List Byte) (f g : State → State) :
    s.busWrite frame f g = { s with answers := rest, inProgress := some (.call (.write frame)) } := by
  rw [State.busWrite_never (State.reply_cons answers), State.takeReply_cons answers]
  rfl

/-- A read that is written down as never answered. -/
theorem State.busRead_unending {s : State} {rest : List Reply} (answers : s.answers = .never :: rest) (n : Nat)
    (f : Vector Byte n → State → State) (g : State → State) :
    s.busRead n f g = { s with answers := rest, inProgress := some (.call (.read n)) } := by
  rw [State.busRead_never (State.reply_cons answers), State.takeReply_cons answers]
  rfl

/-- The order R132 fixes, which three parts of the session share: the command's frame, its wait, and the response of n
bytes; onRead, onFail and onNoAck say what follows each of its ends. -/
def State.exchange (s : State) (frame : List Byte) (w : WaitName) (n : Nat) (onRead : Vector Byte n → State → State)
    (onFail onNoAck : State → State) : State :=
  s.busWrite frame (fun s => s.wait w fun s => s.busRead n onRead onFail) onNoAck

theorem fwverQuery_eq_exchange (s : State) (k : State → State) :
    fwverQuery s k = s.exchange [0xD1, 0x00] .fwver 3 (fun _ => k) k k := by
  obtain ⟨-, -, -, -, -, frame⟩ := frame_bytes
  rw [fwverQuery, frame, State.exchange]

theorem drdyQuery_eq_exchange (s : State) (k : Word → State → State) :
    drdyQuery s k = s.exchange [0x02, 0x02] .poll 2 (fun q => k (be16 q[0] q[1])) (·.raise .busReadError)
      (·.raise .busAckError) := by
  obtain ⟨-, frame, -⟩ := frame_bytes
  rw [drdyQuery, frame, State.exchange]

theorem readMeasurement_eq_exchange (s : State) :
    readMeasurement s = s.exchange [0x03, 0x00] .read 60 finishRead (·.raise .busReadError) (·.raise .busAckError) := by
  obtain ⟨-, -, frame, -⟩ := frame_bytes
  rw [readMeasurement, frame, State.exchange]

section Exchange

variable {s : State} {rest : List Reply} {frame : List Byte} {w : WaitName} {n : Nat}
  {onRead : Vector Byte n → State → State} {onFail onNoAck : State → State}

theorem State.exchange_of_write_never (answers : s.answers = .never :: rest) :
    s.exchange frame w n onRead onFail onNoAck =
      { s with answers := rest, inProgress := some (.call (.write frame)) } :=
  State.busWrite_unending answers _ _ _

theorem State.exchange_of_noAck (answers : s.answers = .failed :: rest) :
    s.exchange frame w n onRead onFail onNoAck =
      onNoAck { s with answers := rest, events := s.events ++ [.write frame .noAck] } :=
  State.busWrite_unacknowledged answers _ _ _

theorem State.exchange_of_wait_never {later : List WaitAnswer} (answers : s.answers = .ok :: rest)
    (waits : s.waits = .never :: later) :
    s.exchange frame w n onRead onFail onNoAck = { s with
      answers := rest, waits := later, inProgress := some (.wait w), events := s.events ++ [.write frame .ok] } := by
  rw [State.exchange, State.busWrite_answered answers, State.wait_never (by simp [waits])]
  simp [State.takeWait, State.emit, State.hang, waits]

/-- The exchange past its write and its wait. -/
theorem State.exchange_of_ack (answers : s.answers = .ok :: rest) (waits : s.waits.head? ≠ some .never) :
    s.exchange frame w n onRead onFail onNoAck = State.busRead { s with
      answers := rest, waits := s.waits.tail, events := s.events ++ [.write frame .ok, .wait w] } n onRead onFail := by
  rw [State.exchange, State.busWrite_answered answers, State.wait_returns (by exact waits)]
  simp [State.takeWait, State.emit]

theorem State.exchange_of_read_never (answers : s.answers = .ok :: .never :: rest)
    (waits : s.waits.head? ≠ some .never) :
    s.exchange frame w n onRead onFail onNoAck = { s with
      answers := rest, waits := s.waits.tail, inProgress := some (.call (.read n))
      events := s.events ++ [.write frame .ok, .wait w] } := by
  rw [State.exchange_of_ack answers waits, State.busRead_unending (rest := rest) rfl]

theorem State.exchange_of_readFail (answers : s.answers = .ok :: .failed :: rest) (waits : s.waits.head? ≠ some .never) :
    s.exchange frame w n onRead onFail onNoAck = onFail { s with
      answers := rest, waits := s.waits.tail
      events := s.events ++ [.write frame .ok, .wait w, .read n .fail] } := by
  rw [State.exchange_of_ack answers waits, State.busRead_unanswered (rest := rest) rfl]
  simp [State.emit]

theorem State.exchange_of_read {q : Vector Byte n} {more : List Byte} (answers : s.answers = .ok :: .ok :: rest)
    (waits : s.waits.head? ≠ some .never) (rx : s.rx = q.toList ++ more) :
    s.exchange frame w n onRead onFail onNoAck = onRead q { s with
      answers := rest, rx := more, waits := s.waits.tail
      events := s.events ++ [.write frame .ok, .wait w, .read n (.ok q.toList)] } := by
  rw [State.exchange_of_ack answers waits, State.busRead_answered (rest := rest) rfl (by exact rx)]
  simp [State.emit]

end Exchange

/-! INIT. -/

/-- INIT (R124) past its first wait. -/
theorem exec_init_of_settled {s : State} (waits : s.waits.head? ≠ some .never) :
    exec .init s = .next ((State.exchange { s with
      waits := s.waits.tail, railEn := true, result := none
      events := s.events ++ [.railOn, .wait .settle] }) [0xD1, 0x00] .fwver 3
        (fun _ => startMeasurement) startMeasurement startMeasurement) := by
  simp only [exec, execInit, fwverQuery_eq_exchange]
  rw [State.wait_returns (s := s.start.setRail true) waits]
  simp [State.emit, State.takeWait, State.setRail, State.start]

/-- INIT stuck in its first wait: the rail is on. -/
theorem exec_init_of_settle_never {s : State} {later : List WaitAnswer} (waits : s.waits = .never :: later) :
    exec .init s = .next { s with
      waits := later, railEn := true, result := none, inProgress := some (.wait .settle)
      events := s.events ++ [.railOn] } := by
  simp only [exec, execInit]
  rw [State.wait_never (by simp [waits])]
  simp [State.emit, State.takeWait, State.setRail, State.start, State.hang, waits]

theorem startMeasurement_of_ack {s : State} {rest : List Reply} (answers : s.answers = .ok :: rest) :
    startMeasurement s = { s with
      answers := rest, session := .measuring, result := some (.ok .done)
      events := s.events ++ [.write [0x00, 0x10, 0x03, 0x00, 0xAC] .ok] } := by
  obtain ⟨frame, -⟩ := frame_bytes
  rw [startMeasurement, frame, State.busWrite_answered answers]
  rfl

theorem startMeasurement_of_noAck {s : State} {rest : List Reply} (answers : s.answers = .failed :: rest) :
    startMeasurement s = { s with
      answers := rest, result := some (.error .initFailure)
      events := s.events ++ [.write [0x00, 0x10, 0x03, 0x00, 0xAC] .noAck] } := by
  obtain ⟨frame, -⟩ := frame_bytes
  rw [startMeasurement, frame, State.busWrite_unacknowledged answers]
  rfl

theorem startMeasurement_of_never {s : State} {rest : List Reply} (answers : s.answers = .never :: rest) :
    startMeasurement s = { s with
      answers := rest, inProgress := some (.call (.write [0x00, 0x10, 0x03, 0x00, 0xAC])) } := by
  obtain ⟨frame, -⟩ := frame_bytes
  rw [startMeasurement, frame, State.busWrite_unending answers]

/-! The query's three ends, after which INIT goes on to its start frame (R125). -/

theorem exec_init_of_query_noAck {s : State} {rest : List Reply} (waits : WaitAnswer.never ∉ s.waits.take 1)
    (answers : s.answers = .failed :: rest) :
    exec .init s = .next (startMeasurement { s with
      answers := rest, waits := s.waits.drop 1, railEn := true, result := none
      events := s.events ++ [.railOn, .wait .settle, .write [0xD1, 0x00] .noAck] }) := by
  rw [exec_init_of_settled (head_returns waits), State.exchange_of_noAck (rest := rest) (by exact answers)]
  simp

theorem exec_init_of_query_readFail {s : State} {rest : List Reply} (waits : WaitAnswer.never ∉ s.waits.take 2)
    (answers : s.answers = .ok :: .failed :: rest) :
    exec .init s = .next (startMeasurement { s with
      answers := rest, waits := s.waits.drop 2, railEn := true, result := none
      events := s.events ++ [.railOn, .wait .settle, .write [0xD1, 0x00] .ok, .wait .fwver, .read 3 .fail] }) := by
  rw [exec_init_of_settled (head_returns waits),
    State.exchange_of_readFail (rest := rest) (by exact answers) (head_returns (tail_returns waits))]
  simp

theorem exec_init_of_query_read {s : State} {rest : List Reply} {f0 f1 f2 : Byte} {more : List Byte}
    (waits : WaitAnswer.never ∉ s.waits.take 2) (answers : s.answers = .ok :: .ok :: rest)
    (rx : s.rx = f0 :: f1 :: f2 :: more) :
    exec .init s = .next (startMeasurement { s with
      answers := rest, rx := more, waits := s.waits.drop 2, railEn := true, result := none
      events := s.events ++ [.railOn, .wait .settle, .write [0xD1, 0x00] .ok, .wait .fwver,
        .read 3 (.ok [f0, f1, f2])] }) := by
  rw [exec_init_of_settled (head_returns waits),
    State.exchange_of_read (rest := rest) (q := #v[f0, f1, f2]) (by exact answers)
      (head_returns (tail_returns waits)) (by exact rx)]
  simp

/-! POLL and READ. -/

/-- POLL and READ are an exchange and the use of its value. -/
theorem exec_eq_exchange {i : Instr} (queries : i = .poll ∨ i = .read) (s : State) :
    exec i s = .next (s.start.exchange [0x02, 0x02] .poll 2 (fun q => useDrdy i (be16 q[0] q[1]))
      (·.raise .busReadError) (·.raise .busAckError)) := by
  rw [exec_eq_drdyQuery queries, drdyQuery_eq_exchange]

/-- READ (R128) where its query answered 1. -/
theorem exec_read_of_ready {s : State} {rest : List Reply} {more : List Byte}
    (waits : s.waits.head? ≠ some .never) (answers : s.answers = .ok :: .ok :: rest) (rx : s.rx = 0x00 :: 0x01 :: more) :
    exec .read s = .next (State.exchange { s with
      answers := rest, rx := more, waits := s.waits.tail, result := none
      events := s.events ++ [.write [0x02, 0x02] .ok, .wait .poll, .read 2 (.ok [0x00, 0x01])] }
        [0x03, 0x00] .read 60 finishRead (·.raise .busReadError) (·.raise .busAckError)) := by
  rw [exec_eq_exchange (.inr rfl), State.exchange_of_read (s := s.start) (q := #v[0x00, 0x01]) answers waits rx,
    ← readMeasurement_eq_exchange]
  rfl

theorem finishRead_eq (q : Block) (s : State) :
    finishRead q s = { s with
      mr := (decodeBlock s.mr q).1
      result := some (readResult (decodeBlock s.mr q).1 (decodeBlock s.mr q).2) } := by
  by_cases whole : (decodeBlock s.mr q).2 = 0
  · simp only [finishRead, readResult, if_pos whole]
    rfl
  · simp only [finishRead, readResult, if_neg whole]
    rfl

/-! DEINIT. -/

theorem exec_deinit_of_never {s : State} {rest : List Reply} (answers : s.answers = .never :: rest) :
    exec .deinit s = .next { s with
      answers := rest, result := none, inProgress := some (.call (.write [0x01, 0x04])) } := by
  obtain ⟨-, -, -, frame, -⟩ := frame_bytes
  simp only [exec, execDeinit, frame]
  rw [State.busWrite_unending (s := s.start) answers]
  rfl

theorem exec_deinit_of_ack {s : State} {rest : List Reply} (answers : s.answers = .ok :: rest) :
    exec .deinit s = .next (shutDown { s with
      answers := rest, result := none, events := s.events ++ [.write [0x01, 0x04] .ok] } (·.deliver .done)) := by
  obtain ⟨-, -, -, frame, -⟩ := frame_bytes
  simp only [exec, execDeinit, frame]
  rw [State.busWrite_answered (s := s.start) answers]
  rfl

theorem exec_deinit_of_noAck {s : State} {rest : List Reply} (answers : s.answers = .failed :: rest) :
    exec .deinit s = .next (shutDown { s with
      answers := rest, result := none, events := s.events ++ [.write [0x01, 0x04] .noAck] } (·.raise .busAckError)) := by
  obtain ⟨-, -, -, frame, -⟩ := frame_bytes
  simp only [exec, execDeinit, frame]
  rw [State.busWrite_unacknowledged (s := s.start) answers]
  rfl

theorem shutDown_of_returns {s : State} (waits : WaitAnswer.never ∉ s.waits.take 1) (report : State → State) :
    shutDown s report = report { s with
      waits := s.waits.drop 1, railEn := false, session := .stopped
      events := s.events ++ [.wait .stop, .railOff] } := by
  rw [shutDown, State.wait_returns (head_returns waits)]
  simp [State.setRail, State.setSession, State.emit, State.takeWait]

theorem shutDown_of_never {s : State} {later : List WaitAnswer} (waits : s.waits = .never :: later)
    (report : State → State) :
    shutDown s report = { s with waits := later, inProgress := some (.wait .stop) } := by
  rw [shutDown, State.wait_never (by simp [waits])]
  simp [State.takeWait, State.hang, waits]

/-! Every run where everything returns. -/

theorem QueryEnded.outcome {query : List Event} (h : QueryEnded query) :
    query = [.write [0xD1, 0x00] .noAck] ∨ query = [.write [0xD1, 0x00] .ok, .wait .fwver, .read 3 .fail] ∨
      ∃ f0 f1 f2, query = [.write [0xD1, 0x00] .ok, .wait .fwver, .read 3 (.ok [f0, f1, f2])] := by
  cases h with
  | noAck => exact .inl rfl
  | failed => exact .inr (.inl rfl)
  | read f0 f1 f2 => exact .inr (.inr ⟨f0, f1, f2, rfl⟩)

/-- Where everything returns, a run ends in one of the ways listed and leaves the host's side alone. -/
theorem exec_ran_of_returns (i : Instr) {s : State} (returns : Returns s) :
    ∃ t new res busy mr session rail, exec i s = .next t ∧ After s t new res busy mr session rail ∧
      Ran s i new res busy mr session rail ∧ SameHostSide s t := by
  obtain ⟨t, new, res, busy, mr, session, rail, h, after, ran⟩ := exec_ran i s
  obtain ⟨-, notStuck⟩ := ran_returns ran returns
  exact ⟨t, new, res, busy, mr, session, rail, h, after, ran, after.requests, after.inProgress.trans notStuck⟩

/-- Settles O28: of INIT's runs two are stuck in nothing, after any end of the query; the start frame's answer tells them
apart. -/
theorem initOutcomes : Obligations.InitOutcomes := by
  intro s returns
  obtain ⟨t, new, res, busy, mr, session, rail, h, after, ran, host⟩ := exec_ran_of_returns .init returns
  cases ran
  case initOk query hq =>
    exact ⟨t, query, .ok, h, hq.outcome, after.events, after.railEn, after.mr, host, after.session, after.result⟩
  case initFailed query hq =>
    exact ⟨t, query, .noAck, h, hq.outcome, after.events, after.railEn, after.mr, host, after.session, after.result⟩
  case frame h | drdyNoAck h | drdyHangs h | drdyFailed h | drdyHangsWaiting h | drdyHangsReading h => simp at h
  all_goals contradiction

/-- Settles O32: of POLL's runs three are stuck in nothing, and none writes a register. -/
theorem pollOutcomes : Obligations.PollOutcomes := by
  intro s returns
  obtain ⟨t, new, res, busy, mr, session, rail, h, after, ran, host⟩ := exec_ran_of_returns .poll returns
  refine ⟨t, new, h, after.events, ?_⟩
  rw [after.result]
  cases ran
  case drdyNoAck => exact ⟨⟨after.mr, after.session, after.railEn⟩, host, .inl ⟨rfl, rfl⟩⟩
  case drdyFailed => exact ⟨⟨after.mr, after.session, after.railEn⟩, host, .inr (.inl ⟨rfl, rfl⟩)⟩
  case polled b0 b1 => exact ⟨⟨after.mr, after.session, after.railEn⟩, host, .inr (.inr ⟨b0, b1, rfl, rfl⟩)⟩
  case frame row => simp at row
  all_goals contradiction

/-- Settles O34: of READ's runs six are stuck in nothing, and only the one that decodes a block writes MR. -/
theorem readOutcomes : Obligations.ReadOutcomes := by
  intro s returns
  obtain ⟨t, new, res, busy, mr, session, rail, h, after, ran, host⟩ := exec_ran_of_returns .read returns
  obtain ⟨session_eq, rail_eq, -⟩ := ran.control_of_other nofun nofun
  refine ⟨t, new, h, after.events, host, after.session.trans session_eq, after.railEn.trans rail_eq, ?_⟩
  rw [after.mr, after.result]
  cases ran
  case drdyNoAck => exact .inl ⟨rfl, rfl, rfl⟩
  case drdyFailed => exact .inr (.inl ⟨rfl, rfl, rfl⟩)
  case notReady b0 b1 notOne => exact .inr (.inr (.inl ⟨b0, b1, rfl, notOne, rfl, rfl⟩))
  case readNoAck => exact .inr (.inr (.inr ⟨_, rfl, .inl ⟨rfl, rfl, rfl⟩⟩))
  case readFailed => exact .inr (.inr (.inr ⟨_, rfl, .inr (.inl ⟨rfl, rfl, rfl⟩)⟩))
  case decoded q => exact .inr (.inr (.inr ⟨_, rfl, .inr (.inr ⟨q, _, rfl, rfl, rfl, rfl⟩)⟩))
  case frame row => simp at row
  all_goals contradiction

/-- Where everything returns, DEINIT shuts down whatever the stop command's answer was, and reports that answer. -/
theorem exec_deinit_of_returns {s : State} (returns : Returns s) : ∃ t a,
    exec .deinit s = .next t ∧
    t.events = s.events ++ [.write [0x01, 0x04] a, .wait .stop, .railOff] ∧
    t.railEn = false ∧ t.session = .stopped ∧ t.mr = s.mr ∧ SameHostSide s t ∧
    t.result = some (if a = .ok then .ok .done else .error .busAckError) := by
  obtain ⟨t, new, res, busy, mr, session, rail, h, after, ran, host⟩ := exec_ran_of_returns .deinit returns
  cases ran
  case deinitOk =>
    exact ⟨t, .ok, h, after.events, after.railEn, after.session, after.mr, host, after.result⟩
  case deinitNoAck =>
    exact ⟨t, .noAck, h, after.events, after.railEn, after.session, after.mr, host, after.result⟩
  case frame h | drdyNoAck h | drdyHangs h | drdyFailed h | drdyHangsWaiting h | drdyHangsReading h => simp at h
  all_goals contradiction

/-! Runs with their answers written down. -/

/-- Settles O27: the query brings its three bytes, and the start frame is acknowledged. -/
theorem initStartsMeasuring : Obligations.InitStartsMeasuring := by
  intro s rest f0 f1 f2 more waits answers rx
  rw [exec_init_of_query_read waits answers rx, startMeasurement_of_ack rfl]
  simp

/-- Settles O56: each end of the query with each answer to the start frame. -/
theorem initFollowsTheAnswers : Obligations.InitFollowsTheAnswers := by
  refine fun s rest => ⟨fun waits => ⟨fun f0 f1 f2 more answers rx => ?_, fun answers => ?_, fun answers => ?_⟩,
    fun waits => ⟨fun answers => ?_, fun answers => ?_⟩⟩
  · rw [exec_init_of_query_read waits answers rx, startMeasurement_of_noAck rfl]
    simp
  · rw [exec_init_of_query_readFail waits answers, startMeasurement_of_ack rfl]
    simp
  · rw [exec_init_of_query_readFail waits answers, startMeasurement_of_noAck rfl]
    simp
  · rw [exec_init_of_query_noAck waits answers, startMeasurement_of_ack rfl]
    simp
  · rw [exec_init_of_query_noAck waits answers, startMeasurement_of_noAck rfl]
    simp


/-- Settles O33: READ's second exchange brings the block, and READ finishes on it. -/
theorem readDeliversTheDecodedBlock : Obligations.ReadDeliversTheDecodedBlock := by
  intro s rest q more waits answers rx
  rw [exec_read_of_ready (head_returns waits) answers rx,
    State.exchange_of_read (rest := rest) rfl (head_returns (tail_returns waits)) rfl, finishRead_eq]
  simp [readResult]

/-- Settles O57: the two failing ends of READ's second exchange. -/
theorem readFailsAfterReady : Obligations.ReadFailsAfterReady := by
  refine fun s rest more rx => ⟨fun waits answers => ?_, fun waits answers => ?_⟩
  · rw [exec_read_of_ready (head_returns waits) answers rx, State.exchange_of_noAck (rest := rest) rfl]
    simp [State.raise]
  · rw [exec_read_of_ready (head_returns waits) answers rx,
      State.exchange_of_readFail (rest := rest) rfl (head_returns (tail_returns waits))]
    simp [State.raise]

/-- Settles O38: every run that returns, and the two answers to the stop command when they are written down. -/
theorem deinitAlwaysDisablesTheRail : Obligations.DeinitAlwaysDisablesTheRail := by
  refine ⟨fun s returns => exec_deinit_of_returns returns, fun s rest waits => ⟨fun answers => ?_, fun answers => ?_⟩⟩
  · rw [exec_deinit_of_ack answers, shutDown_of_returns (by exact waits)]
    simp [State.deliver]
  · rw [exec_deinit_of_noAck answers, shutDown_of_returns (by exact waits)]
    simp [State.raise]

/-- Settles O59: each wait, reached by the answers before it. -/
theorem endlessWaitLeavesTheBlockBusy : Obligations.EndlessWaitLeavesTheBlockBusy := by
  refine fun s rest later => ⟨fun waits => ⟨?_, fun answers => ⟨fun i queries => ?_, ?_⟩, fun answers => ?_⟩,
    fun waits => ⟨fun answers => ?_, fun more answers rx => ?_⟩⟩
  · exact exec_init_of_settle_never waits
  · rw [exec_eq_exchange queries, State.exchange_of_wait_never (s := s.start) answers waits]
    rfl
  · rw [exec_deinit_of_ack answers, shutDown_of_never (by exact waits)]
  · rw [exec_deinit_of_noAck answers, shutDown_of_never (by exact waits)]
  · rw [exec_init_of_settled (by simp [waits]),
      State.exchange_of_wait_never (rest := rest) (later := later) (by exact answers) (by simp [waits])]
    simp
  · rw [exec_read_of_ready (by simp [waits]) answers rx,
      State.exchange_of_wait_never (rest := rest) (later := later) rfl (by simp [waits])]
    simp

/-- Settles O49: each call, reached by the answers before it. -/
theorem unansweredCallLeavesTheBlockBusy : Obligations.UnansweredCallLeavesTheBlockBusy := by
  refine fun s rest => ⟨fun waits => ⟨fun answers => ?_, fun answers => ?_⟩,
    fun waits => ⟨fun answers => ?_, fun answers => ?_, fun f0 f1 f2 more answers rx => ?_⟩,
    fun i queries => ⟨fun answers => ?_, fun waits answers => ?_⟩,
    fun more rx => ⟨fun waits answers => ?_, fun waits answers => ?_⟩, exec_deinit_of_never⟩
  · rw [exec_init_of_settled (head_returns waits), State.exchange_of_write_never (rest := rest) (by exact answers)]
    simp
  · rw [exec_init_of_query_noAck waits answers, startMeasurement_of_never rfl]
  · rw [exec_init_of_settled (head_returns waits),
      State.exchange_of_read_never (rest := rest) (by exact answers) (head_returns (tail_returns waits))]
    simp
  · rw [exec_init_of_query_readFail waits answers, startMeasurement_of_never rfl]
  · rw [exec_init_of_query_read waits answers rx, startMeasurement_of_never rfl]
  · rw [exec_eq_exchange queries, State.exchange_of_write_never (s := s.start) answers]
    rfl
  · rw [exec_eq_exchange queries, State.exchange_of_read_never (s := s.start) answers (head_returns waits)]
    simp
  · rw [exec_read_of_ready (head_returns waits) answers rx, State.exchange_of_write_never (rest := rest) rfl]
    simp
  · rw [exec_read_of_ready (head_returns waits) answers rx,
      State.exchange_of_read_never (rest := rest) rfl (head_returns (tail_returns waits))]
    simp

end Sys2Proof.Machine
end

section
/-!
The invariants (`spec/43_session.md` R132, `spec/10_state.md` R27, `spec/70_reset_and_hazards.md` R175): in which order
transfers take place, how the rail goes with its events and the session, and that a busy block has no result. Each holds
at reset, and each run of an instruction keeps it.
-/
namespace Sys2Proof.Safety

open Sys2Proof.Machine

/-! Rules of order. -/

/-- Each of these events meets P with all that happened before it, first the events `done` and then those of the list. -/
def PrecededFrom (P : List Event → Event → Prop) : List Event → List Event → Prop
  | _, [] => True
  | done, e :: evs => P done e ∧ PrecededFrom P (done ++ [e]) evs

section Preceded

variable {P : List Event → Event → Prop} {done evs : List Event}

theorem precededFrom_iff :
    PrecededFrom P done evs ↔ ∀ pre e post, evs = pre ++ e :: post → P (done ++ pre) e := by
  induction evs generalizing done with
  | nil => simp [PrecededFrom]
  | cons e evs ih =>
    rw [PrecededFrom, ih]
    constructor
    · rintro ⟨first, later⟩ (_ | ⟨a, pre⟩) e' post h <;> cases h
      · rwa [List.append_nil]
      · simpa using later pre e' post rfl
    · intro h
      refine ⟨by simpa using h [] e evs rfl, fun pre e' post split => ?_⟩
      simpa using h (e :: pre) e' post (by rw [split]; rfl)

theorem PrecededFrom.append {new : List Event} (h : PrecededFrom P done evs) (h' : PrecededFrom P (done ++ evs) new) :
    PrecededFrom P done (evs ++ new) := by
  induction evs generalizing done with
  | nil => simpa using h'
  | cons e evs ih => exact ⟨h.1, ih h.2 (by simpa using h')⟩

/-- A condition on the latest events only goes on holding when more happened before them. -/
theorem PrecededFrom.mono (latest : ∀ before done e, P done e → P (before ++ done) e) (h : PrecededFrom P done evs)
    (before : List Event) : PrecededFrom P (before ++ done) evs := by
  rw [precededFrom_iff] at h ⊢
  intro pre e post split
  rw [List.append_assoc]
  exact latest before _ e (h pre e post split)

theorem PrecededFrom.imp {Q : List Event → Event → Prop} (weaker : ∀ done e, P done e → Q done e)
    (h : PrecededFrom P done evs) : PrecededFrom Q done evs := by
  rw [precededFrom_iff] at h ⊢
  exact fun pre e post split => weaker _ e (h pre e post split)

end Preceded

/-- R132: a read comes at once after the acknowledged write of its command and that command's wait. -/
def ReadAnnounced (done : List Event) : Event → Prop
  | .read n _ => ∃ frame w, commandOf n = some (frame, w) ∧ [.write frame .ok, .wait w] <:+ done
  | _ => True

/-- R128, R145: a read-measurement command comes at once after a data-ready query that answered 1. -/
def ReadCommandAfterReady (done : List Event) : Event → Prop
  | .write frame _ =>
    frame = [0x03, 0x00] → [.write [0x02, 0x02] .ok, .wait .poll, .read 2 (.ok [0x00, 0x01])] <:+ done
  | _ => True

/-- Both rules of order. -/
def InOrder (done : List Event) (e : Event) : Prop := ReadAnnounced done e ∧ ReadCommandAfterReady done e

theorem readAnnounced_latest (before done : List Event) (e : Event) (h : ReadAnnounced done e) :
    ReadAnnounced (before ++ done) e := by
  cases e with
  | read n a =>
    obtain ⟨frame, w, command, last⟩ := h
    exact ⟨frame, w, command, last.trans (List.suffix_append before done)⟩
  | _ => trivial

theorem readCommandAfterReady_latest (before done : List Event) (e : Event) (h : ReadCommandAfterReady done e) :
    ReadCommandAfterReady (before ++ done) e := by
  cases e with
  | write frame a => exact fun command => (h command).trans (List.suffix_append before done)
  | _ => trivial

theorem readsAnnounced_iff (evs : List Event) : ReadsAnnounced evs ↔ PrecededFrom ReadAnnounced [] evs := by
  rw [precededFrom_iff]
  constructor
  · intro h pre e post split
    cases e with
    | read n a =>
      obtain ⟨before, frame, w, command, rfl⟩ := h pre n a post split
      exact ⟨frame, w, command, before, rfl⟩
    | _ => trivial
  · intro h pre n a post split
    obtain ⟨frame, w, command, before, rfl⟩ := h pre (.read n a) post split
    exact ⟨before, frame, w, command, rfl⟩

theorem readCommandsFollowReady_iff (evs : List Event) :
    ReadCommandsFollowReady evs ↔ PrecededFrom ReadCommandAfterReady [] evs := by
  rw [precededFrom_iff]
  constructor
  · intro h pre e post split
    cases e with
    | write frame a =>
      rintro rfl
      obtain ⟨before, rfl⟩ := h pre a post split
      exact ⟨before, rfl⟩
    | _ => trivial
  · intro h pre a post split
    obtain ⟨before, rfl⟩ := h pre (.write [0x03, 0x00] a) post split rfl
    exact ⟨before, rfl⟩

/-! The level of the rail. -/

theorem railAfter_append_railOn (evs : List Event) : railAfter (evs ++ [.railOn]) = true := by simp [railAfter]
theorem railAfter_append_railOff (evs : List Event) : railAfter (evs ++ [.railOff]) = false := by simp [railAfter]

/-- Only the two rail events change the level (R27). -/
theorem railAfter_append_of_noRailEvent {evs new : List Event} (h : NoRailEvent new) :
    railAfter (evs ++ new) = railAfter evs := by
  induction new generalizing evs with
  | nil => rw [List.append_nil]
  | cons e new ih =>
    obtain ⟨noOn, noOff⟩ := h
    rw [List.mem_cons, not_or] at noOn noOff
    have same : railAfter (evs ++ [e]) = railAfter evs := by
      cases e with
      | railOn => exact absurd rfl noOn.1
      | railOff => exact absurd rfl noOff.1
      | wait | write | read => simp [railAfter]
    rw [List.append_cons, ih ⟨noOn.2, noOff.2⟩, same]

end Sys2Proof.Safety

namespace Sys2Proof.Machine

open Sys2Proof.Safety

/-- Settles O12: no event has happened, and the reset state is written out. -/
theorem resetMeetsTheInvariants : Obligations.ResetMeetsTheInvariants :=
  ⟨trafficLegal_nil, (readsAnnounced_iff []).mpr trivial, (readCommandsFollowReady_iff []).mpr trivial, rfl, nofun,
    fun busy => absurd rfl busy⟩

section Runs

variable {s t : State} {i : Instr} {new : List Event} {res : Option Result} {busy : Option Pending} {mr : Record}
  {session : Session} {rail : Bool}

/-- In every way to run, both rules of order hold of the events added, without any before them. -/
theorem Ran.inOrder (h : Ran s i new res busy mr session rail) : PrecededFrom InOrder [] new := by
  cases h
  case crc8 | bldcmd | bldarg | word | badWord | decblk | frame => trivial
  case initOk query hq | initFailed query hq | initHangsStart query hq _ =>
    cases hq <;> simp [PrecededFrom, InOrder, ReadAnnounced, ReadCommandAfterReady, commandOf, List.suffix_cons_iff]
  case initHangsSettle | initHangsQuery | initHangsFwver | initHangsVersion =>
    simp [PrecededFrom, InOrder, ReadAnnounced, ReadCommandAfterReady]
  case drdyNoAck | drdyHangs | drdyFailed | drdyHangsWaiting | drdyHangsReading | polled | notReady =>
    simp [PrecededFrom, InOrder, ReadAnnounced, ReadCommandAfterReady, commandOf]
  case readNoAck | readHangs | readFailed | readHangsWaiting | readHangsReading | decoded =>
    simp [PrecededFrom, InOrder, ReadAnnounced, ReadCommandAfterReady, commandOf, List.suffix_cons_iff]
  case deinitOk | deinitNoAck | deinitHangsWaiting | deinitHangs =>
    simp [PrecededFrom, InOrder, ReadAnnounced, ReadCommandAfterReady]

/-- A run leaves RAIL_EN at the level its events make from the level before it (R27). -/
theorem Ran.rail_eq_railAfter (h : Ran s i new res busy mr session rail) {evs : List Event}
    (level : s.railEn = railAfter evs) : rail = railAfter (evs ++ new) := by
  by_cases init : i = .init
  · subst init
    obtain ⟨-, rfl, rest, rfl, quiet⟩ := h.control_of_init
    rw [List.append_cons, railAfter_append_of_noRailEvent quiet, railAfter_append_railOn]
  by_cases deinit : i = .deinit
  · subst deinit
    obtain ⟨-, -, rfl, before, rfl, -⟩ | ⟨-, -, rfl, quiet⟩ := h.control_of_deinit
    · rw [← List.append_assoc, railAfter_append_railOff]
    · rw [level, railAfter_append_of_noRailEvent quiet]
  · obtain ⟨-, rfl, quiet⟩ := h.control_of_other init deinit
    rw [level, railAfter_append_of_noRailEvent quiet]

/-- INIT, which starts a measuring session, has switched the rail on; DEINIT, which switches it off, stops the session. -/
theorem Ran.powered (h : Ran s i new res busy mr session rail) (powered : MeasuringIsPowered s)
    (measuring : session = .measuring) : rail = true := by
  by_cases init : i = .init
  · subst init
    exact h.control_of_init.2.1
  by_cases deinit : i = .deinit
  · subst deinit
    obtain ⟨-, rfl, -⟩ | ⟨-, rfl, rfl, -⟩ := h.control_of_deinit
    · cases measuring
    · exact powered measuring
  · obtain ⟨rfl, rfl, -⟩ := h.control_of_other init deinit
    exact powered measuring

/-- A run that is stuck in a step has delivered nothing (R175). -/
theorem Ran.busy_eq_or_res_eq_none (h : Ran s i new res busy mr session rail) : busy = s.inProgress ∨ res = none := by
  cases h
  case initHangsSettle | initHangsQuery | initHangsFwver | initHangsVersion | initHangsStart => exact .inr rfl
  case drdyHangs | drdyHangsWaiting | drdyHangsReading | readHangs | readHangsWaiting | readHangsReading => exact .inr rfl
  case deinitHangsWaiting | deinitHangs => exact .inr rfl
  all_goals exact .inl rfl

/-- A rule of order that looks at the latest events only holds after a step if it held before. -/
theorem step_keeps_preceded {P : List Event → Event → Prop} (latest : ∀ before done e, P done e → P (before ++ done) e)
    (part : ∀ done e, InOrder done e → P done e) (holds : PrecededFrom P [] s.events) (h : step s = .next t) :
    PrecededFrom P [] t.events := by
  obtain ⟨-, rfl⟩ | ⟨i, r, rest, -, -, -, run⟩ := step_cases h
  · exact holds
  · obtain ⟨new, _, _, _, _, _, after, ran⟩ := ran_of_exec run
    have more := (ran.inOrder.imp part).mono latest s.events
    rw [List.append_nil] at more
    rw [after.events]
    exact holds.append more

end Runs

/-- Settles O52: the first rule of order. -/
theorem stepKeepsReadsAnnounced : Obligations.StepKeepsReadsAnnounced := by
  intro s t holds h
  rw [readsAnnounced_iff] at holds ⊢
  exact step_keeps_preceded readAnnounced_latest (fun _ _ => And.left) holds h

/-- Settles O53: the second rule of order. -/
theorem stepKeepsReadCommandsAfterReady : Obligations.StepKeepsReadCommandsAfterReady := by
  intro s t holds h
  rw [readCommandsFollowReady_iff] at holds ⊢
  exact step_keeps_preceded readCommandAfterReady_latest (fun _ _ => And.right) holds h

/-- Settles O54: a run makes RAIL_EN by its rail events, and measures with the rail on. -/
theorem stepKeepsTheRailConsistent : Obligations.StepKeepsTheRailConsistent := by
  intro s t level powered h
  obtain ⟨-, rfl⟩ | ⟨i, r, rest, -, -, -, run⟩ := step_cases h
  · exact ⟨level, powered⟩
  · obtain ⟨new, res, busy, mr, session, rail, after, ran⟩ := ran_of_exec run
    constructor
    · rw [RailMatchesEvents, after.railEn, after.events]
      exact ran.rail_eq_railAfter level
    · rw [MeasuringIsPowered, after.railEn, after.session]
      exact ran.powered powered

/-- Settles O55: a step runs an instruction in an idle block only, and a run that is stuck has no result. -/
theorem stepKeepsBusyWithoutResult : Obligations.StepKeepsBusyWithoutResult := by
  intro s t holds h stuck
  obtain ⟨-, rfl⟩ | ⟨i, r, rest, -, idle, -, run⟩ := step_cases h
  · exact holds stuck
  · obtain ⟨new, res, busy, mr, session, rail, after, ran⟩ := ran_of_exec run
    rw [after.inProgress] at stuck
    rw [after.result]
    obtain same | none := ran.busy_eq_or_res_eq_none
    · exact absurd (same.trans idle) stuck
    · exact none

end Sys2Proof.Machine
end
